-- ==== Sys2Proof/Word.lean ====
section
/-! DEFINITION. The two widths of the machine (00_scope.md rule R4): 8-bit registers and memory cells, 16-bit register
pairs and addresses. -/

namespace Sys2Proof

/-- An 8-bit register, a memory cell, an instruction byte. -/
abbrev Byte := BitVec 8

/-- A 16-bit register pair, an address, PC or SP. -/
abbrev Word := BitVec 16

end Sys2Proof
end

