-- ==== Sys2Proof/Config.lean ====
section
/-! DEFINITION. The parameters of the block, with the values of 00_scope.md rule R4. The spec leaves no value free
(70_reset_and_hazards.md rule R308), so there is no constant without a body here. -/

namespace Sys2Proof.Config

/-- The two readings of `HALT_MODE` that rule R4 offers: `placeholder` (HALT does nothing but advance PC, decision D9)
and `stuck` (a state whose next opcode is 0x76 has no successor, 93_implementation_defined.md U6). -/
inductive HaltMode where
  | placeholder
  | stuck
deriving DecidableEq, Repr

/-- `ORIGIN`: where an image is placed, and the entry point (R4, R43, R302). -/
def origin : Word := 0x0100#16

/-- `PC_RESET`: PC after construction (R4, R25, decision D1; log entry 1). -/
def pcReset : Word := 0x0000#16

/-- `SP_RESET`: SP after construction (R4, R25, decision D2; log entry 1). -/
def spReset : Word := 0x0000#16

/-- `HALT_MODE`, at the default of R4 (decision D9; log entry 2). DESIGN CHOICE, unsafe: on silicon without an interrupt
a HALT never ends. -/
def haltMode : HaltMode := .placeholder

/-- `TICKS_PER_MCYCLE` (R4, R312). -/
def ticksPerMCycle : Nat := 4

/-- The number of bytes of memory (R21, R30). -/
def memSize : Nat := 65536

/-- The prefix byte (R4, R61). -/
def prefixByte : Byte := 0xCB#8

end Sys2Proof.Config
end

