-- ==== Sys2Proof/Syntax.lean ====
section
/-! DEFINITION. Instructions as the machine runs them: one constructor for each of the 117 rows of opcode_table.json
(30_encoding.md rules R72 to R77, R221, R222), with the operand kinds of rules R63 to R71. The operand bytes of an
instruction are arguments of its constructor. -/

namespace Sys2Proof

/-- The seven registers an 8-bit operand code can name (R13, R63); code 6 is the memory operand, see `Operand8`. -/
inductive R8 where
  | b | c | d | e | h | l | a
deriving DecidableEq, Repr

/-- The 8-bit operand selector as "an explicit enumerated capability" (R63): a register, or the byte at HL. -/
inductive Operand8 where
  | reg (r : R8)
  | indHL
deriving DecidableEq, Repr

/-- The 16-bit operand of Group 0 (R64). -/
inductive R16 where
  | bc | de | hl | sp
deriving DecidableEq, Repr

/-- The register pair of `PUSH r16` and `POP r16` (R65); AF has rows of its own (R189, R191). -/
inductive R16Stk where
  | bc | de | hl
deriving DecidableEq, Repr

/-- The four conditions (R67). -/
inductive Cond where
  | nz | z | nc | c
deriving DecidableEq, Repr

/-- The eight accumulator operations (R68). -/
inductive AluOp where
  | add | adc | sub | sbc | and | xor | or | cp
deriving DecidableEq, Repr

/-- The eight rotates and shifts of Group CB (R69). -/
inductive RotOp where
  | rlc | rrc | rl | rr | sla | sra | swap | srl
deriving DecidableEq, Repr

/-- What a CB second byte asks for, its operand apart (R69, R76). -/
inductive CbOp where
  | rot (o : RotOp)
  | bit (b : BitVec 3)
  | res (b : BitVec 3)
  | set (b : BitVec 3)
deriving DecidableEq, Repr

/-- The instructions, in the order of the spec's rules. -/
inductive Instr where
  /-- NOP (R110) -/
  | nop
  /-- LD r16,n16 (R111) -/
  | ldR16N16 (rr : R16) (n16 : Word)
  /-- LD [BC],A (R112) -/
  | ldBcA
  /-- LD [DE],A (R113) -/
  | ldDeA
  /-- LD [HL+],A (R114) -/
  | ldHliA
  /-- LD [HL-],A (R115) -/
  | ldHldA
  /-- LD A,[BC] (R116) -/
  | ldABc
  /-- LD A,[DE] (R117) -/
  | ldADe
  /-- LD A,[HL+] (R118) -/
  | ldAHli
  /-- LD A,[HL-] (R119) -/
  | ldAHld
  /-- LD [a16],SP (R120) -/
  | ldA16Sp (a16 : Word)
  /-- INC r16 (R121) -/
  | incR16 (rr : R16)
  /-- DEC r16 (R122) -/
  | decR16 (rr : R16)
  /-- ADD HL,r16 (R123) -/
  | addHlR16 (rr : R16)
  /-- INC r8 (R124) -/
  | incR8 (r : R8)
  /-- INC [HL] (R125) -/
  | incHl
  /-- DEC r8 (R126) -/
  | decR8 (r : R8)
  /-- DEC [HL] (R127) -/
  | decHl
  /-- LD r8,n8 (R128) -/
  | ldR8N8 (r : R8) (n8 : Byte)
  /-- LD [HL],n8 (R129) -/
  | ldHlN8 (n8 : Byte)
  /-- RLCA (R130) -/
  | rlca
  /-- RRCA (R131) -/
  | rrca
  /-- RLA (R132) -/
  | rla
  /-- RRA (R133) -/
  | rra
  /-- DAA (R134) -/
  | daa
  /-- CPL (R135) -/
  | cpl
  /-- SCF (R136) -/
  | scf
  /-- CCF (R137) -/
  | ccf
  /-- JR e8 (R138) -/
  | jr (e8 : Byte)
  /-- JR cc,e8 (R139) -/
  | jrCc (cc : Cond) (e8 : Byte)
  /-- STOP (R140) -/
  | stop
  /-- LD r8,r8' (R150) -/
  | ldR8R8 (dst src : R8)
  /-- LD r8,[HL] (R151) -/
  | ldR8Hl (dst : R8)
  /-- LD [HL],r8 (R152) -/
  | ldHlR8 (src : R8)
  /-- HALT (R153) -/
  | halt
  /-- ADD A,r8 (R160) -/
  | addAR8 (r : R8)
  /-- ADD A,[HL] (R161) -/
  | addAHl
  /-- ADC A,r8 (R162) -/
  | adcAR8 (r : R8)
  /-- ADC A,[HL] (R163) -/
  | adcAHl
  /-- SUB r8 (R164) -/
  | subR8 (r : R8)
  /-- SUB [HL] (R165) -/
  | subHl
  /-- SBC A,r8 (R166) -/
  | sbcAR8 (r : R8)
  /-- SBC A,[HL] (R167) -/
  | sbcAHl
  /-- AND r8 (R168) -/
  | andR8 (r : R8)
  /-- AND [HL] (R169) -/
  | andHl
  /-- XOR r8 (R170) -/
  | xorR8 (r : R8)
  /-- XOR [HL] (R171) -/
  | xorHl
  /-- OR r8 (R172) -/
  | orR8 (r : R8)
  /-- OR [HL] (R173) -/
  | orHl
  /-- CP r8 (R174) -/
  | cpR8 (r : R8)
  /-- CP [HL] (R175) -/
  | cpHl
  /-- ADD A,n8 (R180) -/
  | addAN8 (n8 : Byte)
  /-- ADC A,n8 (R181) -/
  | adcAN8 (n8 : Byte)
  /-- SUB n8 (R182) -/
  | subN8 (n8 : Byte)
  /-- SBC A,n8 (R183) -/
  | sbcAN8 (n8 : Byte)
  /-- AND n8 (R184) -/
  | andN8 (n8 : Byte)
  /-- XOR n8 (R185) -/
  | xorN8 (n8 : Byte)
  /-- OR n8 (R186) -/
  | orN8 (n8 : Byte)
  /-- CP n8 (R187) -/
  | cpN8 (n8 : Byte)
  /-- POP r16 (R188) -/
  | popR16 (rr : R16Stk)
  /-- POP AF (R189) -/
  | popAf
  /-- PUSH r16 (R190) -/
  | pushR16 (rr : R16Stk)
  /-- PUSH AF (R191) -/
  | pushAf
  /-- LDH [C],A (R192) -/
  | ldhCA
  /-- LDH [a8],A (R193) -/
  | ldhA8A (a8 : Byte)
  /-- LD [a16],A (R194) -/
  | ldA16A (a16 : Word)
  /-- LDH A,[C] (R195) -/
  | ldhAC
  /-- LDH A,[a8] (R196) -/
  | ldhAA8 (a8 : Byte)
  /-- LD A,[a16] (R197) -/
  | ldAA16 (a16 : Word)
  /-- ADD SP,e8 (R198) -/
  | addSpE8 (e8 : Byte)
  /-- LD HL,SP+e8 (R199) -/
  | ldHlSpE8 (e8 : Byte)
  /-- LD SP,HL (R200) -/
  | ldSpHl
  /-- RET cc (R210) -/
  | retCc (cc : Cond)
  /-- RET (R211) -/
  | ret
  /-- RETI (R212) -/
  | reti
  /-- JP cc,a16 (R213) -/
  | jpCc (cc : Cond) (a16 : Word)
  /-- JP a16 (R214) -/
  | jp (a16 : Word)
  /-- JP HL (R215) -/
  | jpHl
  /-- CALL cc,a16 (R216) -/
  | callCc (cc : Cond) (a16 : Word)
  /-- CALL a16 (R217) -/
  | call (a16 : Word)
  /-- RST t (R218) -/
  | rst (t : BitVec 3)
  /-- DI (R219) -/
  | di
  /-- EI (R220) -/
  | ei
  /-- PREFIX CB (R221) -/
  | prefixCB
  /-- UNDEFINED 0xD3 (R222) -/
  | undefinedD3
  /-- UNDEFINED 0xDB (R222) -/
  | undefinedDB
  /-- UNDEFINED 0xDD (R222) -/
  | undefinedDD
  /-- UNDEFINED 0xE3 (R222) -/
  | undefinedE3
  /-- UNDEFINED 0xE4 (R222) -/
  | undefinedE4
  /-- UNDEFINED 0xEB (R222) -/
  | undefinedEB
  /-- UNDEFINED 0xEC (R222) -/
  | undefinedEC
  /-- UNDEFINED 0xED (R222) -/
  | undefinedED
  /-- UNDEFINED 0xF4 (R222) -/
  | undefinedF4
  /-- UNDEFINED 0xFC (R222) -/
  | undefinedFC
  /-- UNDEFINED 0xFD (R222) -/
  | undefinedFD
  /-- RLC r8 (R240) -/
  | rlcR8 (r : R8)
  /-- RLC [HL] (R241) -/
  | rlcHl
  /-- RRC r8 (R242) -/
  | rrcR8 (r : R8)
  /-- RRC [HL] (R243) -/
  | rrcHl
  /-- RL r8 (R244) -/
  | rlR8 (r : R8)
  /-- RL [HL] (R245) -/
  | rlHl
  /-- RR r8 (R246) -/
  | rrR8 (r : R8)
  /-- RR [HL] (R247) -/
  | rrHl
  /-- SLA r8 (R248) -/
  | slaR8 (r : R8)
  /-- SLA [HL] (R249) -/
  | slaHl
  /-- SRA r8 (R250) -/
  | sraR8 (r : R8)
  /-- SRA [HL] (R251) -/
  | sraHl
  /-- SWAP r8 (R252) -/
  | swapR8 (r : R8)
  /-- SWAP [HL] (R253) -/
  | swapHl
  /-- SRL r8 (R254) -/
  | srlR8 (r : R8)
  /-- SRL [HL] (R255) -/
  | srlHl
  /-- BIT b,r8 (R256) -/
  | bitR8 (b : BitVec 3) (r : R8)
  /-- BIT b,[HL] (R257) -/
  | bitHl (b : BitVec 3)
  /-- RES b,r8 (R258) -/
  | resR8 (b : BitVec 3) (r : R8)
  /-- RES b,[HL] (R259) -/
  | resHl (b : BitVec 3)
  /-- SET b,r8 (R260) -/
  | setR8 (b : BitVec 3) (r : R8)
  /-- SET b,[HL] (R261) -/
  | setHl (b : BitVec 3)
deriving DecidableEq, Repr

end Sys2Proof
end

