-- ==== Sys2Proof/WellFormed.lean ====
section
/-! DEFINITION. Which terms of `Instr` are complete instructions. Every operand field is typed at exactly the values its
code can take (30_encoding.md rules R63 to R71, R79), so one check is left: the prefix row. -/

namespace Sys2Proof

/-- The prefix byte alone is "never a complete instruction" (R60, R221); every other row is. The undefined opcodes
are complete one-byte encodings whose meaning is their fault (R222). -/
def Instr.wellFormed (i : Instr) : Bool :=
  i != .prefixCB

end Sys2Proof
end

