-- ==== Sys2Proof/Decode.lean ====
section
/-! DEFINITION. Bytes to instructions and back: the fields and code tables of 30_encoding.md rules R62 to R71, the
decode tree of rule R61 with the group maps of rules R72 to R77, the decoder over any list of bytes, the encoder from
the same maps, and the host's entry point `decodeTableWord`. The bit patterns are those the spec supplies (decision
D25; log entry 3). -/

namespace Sys2Proof

/-! ### Fields (R62) -/

/-- `x = op[7:6]`, the group. -/
def fieldX (op : Byte) : BitVec 2 := op.extractLsb' 6 2

/-- `y = op[5:3]`. -/
def fieldY (op : Byte) : BitVec 3 := op.extractLsb' 3 3

/-- `z = op[2:0]`. -/
def fieldZ (op : Byte) : BitVec 3 := op.extractLsb' 0 3

/-- `p = op[5:4]`. -/
def fieldP (op : Byte) : BitVec 2 := op.extractLsb' 4 2

/-- `q = op[3]`. -/
def fieldQ (op : Byte) : Bool := op.getLsbD 3

/-- `cc = op[4:3]` (R67). -/
def fieldCc (op : Byte) : BitVec 2 := op.extractLsb' 3 2

/-- `byte2 : byte1` of a little-endian immediate (R71, R51). -/
def leWord (lo hi : Byte) : Word := hi ++ lo

/-- Bits 7:0 of a word. -/
def loByte (w : Word) : Byte := w.extractLsb' 0 8

/-- Bits 15:8 of a word. -/
def hiByte (w : Word) : Byte := w.extractLsb' 8 8

/-! ### Operand codes (R63 to R69) -/

/-- `r8[c]` (R63). -/
def operand8 (c : BitVec 3) : Operand8 :=
  match c.toNat with
  | 0 => .reg .b
  | 1 => .reg .c
  | 2 => .reg .d
  | 3 => .reg .e
  | 4 => .reg .h
  | 5 => .reg .l
  | 6 => .indHL
  | _ => .reg .a

/-- The code of a register (R63). -/
def r8Code : R8 → BitVec 3
  | .b => 0#3
  | .c => 1#3
  | .d => 2#3
  | .e => 3#3
  | .h => 4#3
  | .l => 5#3
  | .a => 7#3

/-- The code of the memory operand `[HL]` (R63). -/
def indHlCode : BitVec 3 := 6#3

/-- `r16[p]` (R64). -/
def operand16 (p : BitVec 2) : R16 :=
  match p.toNat with
  | 0 => .bc
  | 1 => .de
  | 2 => .hl
  | _ => .sp

/-- The code of a 16-bit operand (R64). -/
def r16Code : R16 → BitVec 2
  | .bc => 0#2
  | .de => 1#2
  | .hl => 2#2
  | .sp => 3#2

/-- The code of a stack pair (R65); code 3 is AF. -/
def r16StkCode : R16Stk → BitVec 2
  | .bc => 0#2
  | .de => 1#2
  | .hl => 2#2

/-- The condition with code `cc` (R67). -/
def condOf (cc : BitVec 2) : Cond :=
  match cc.toNat with
  | 0 => .nz
  | 1 => .z
  | 2 => .nc
  | _ => .c

/-- The code of a condition (R67). -/
def condCode : Cond → BitVec 2
  | .nz => 0#2
  | .z => 1#2
  | .nc => 2#2
  | .c => 3#2

/-- `alu[o]` (R68). -/
def aluOf (o : BitVec 3) : AluOp :=
  match o.toNat with
  | 0 => .add
  | 1 => .adc
  | 2 => .sub
  | 3 => .sbc
  | 4 => .and
  | 5 => .xor
  | 6 => .or
  | _ => .cp

/-- The code of an accumulator operation (R68). -/
def aluCode : AluOp → BitVec 3
  | .add => 0#3
  | .adc => 1#3
  | .sub => 2#3
  | .sbc => 3#3
  | .and => 4#3
  | .xor => 5#3
  | .or => 6#3
  | .cp => 7#3

/-- The rotate or shift with code `y` (R69). -/
def rotOf (y : BitVec 3) : RotOp :=
  match y.toNat with
  | 0 => .rlc
  | 1 => .rrc
  | 2 => .rl
  | 3 => .rr
  | 4 => .sla
  | 5 => .sra
  | 6 => .swap
  | _ => .srl

/-- The code of a rotate or shift (R69). -/
def rotCode : RotOp → BitVec 3
  | .rlc => 0#3
  | .rrc => 1#3
  | .rl => 2#3
  | .rr => 3#3
  | .sla => 4#3
  | .sra => 5#3
  | .swap => 6#3
  | .srl => 7#3

/-- The operation of a CB second byte (R69, R76): its class in bits 7:6, the operation or bit index in bits 5:3. -/
def cbOpOf (cb : Byte) : CbOp :=
  match (fieldX cb).toNat with
  | 0 => .rot (rotOf (fieldY cb))
  | 1 => .bit (fieldY cb)
  | 2 => .res (fieldY cb)
  | _ => .set (fieldY cb)

/-! ### The group maps -/

/-- The register rows of Group 2 (R74). -/
def aluRegInstr (o : AluOp) (r : R8) : Instr :=
  match o with
  | .add => .addAR8 r
  | .adc => .adcAR8 r
  | .sub => .subR8 r
  | .sbc => .sbcAR8 r
  | .and => .andR8 r
  | .xor => .xorR8 r
  | .or => .orR8 r
  | .cp => .cpR8 r

/-- The `[HL]` rows of Group 2 (R74). -/
def aluHlInstr (o : AluOp) : Instr :=
  match o with
  | .add => .addAHl
  | .adc => .adcAHl
  | .sub => .subHl
  | .sbc => .sbcAHl
  | .and => .andHl
  | .xor => .xorHl
  | .or => .orHl
  | .cp => .cpHl

/-- The immediate rows of Group 3 (R75, first row). -/
def aluN8Instr (o : AluOp) (n8 : Byte) : Instr :=
  match o with
  | .add => .addAN8 n8
  | .adc => .adcAN8 n8
  | .sub => .subN8 n8
  | .sbc => .sbcAN8 n8
  | .and => .andN8 n8
  | .xor => .xorN8 n8
  | .or => .orN8 n8
  | .cp => .cpN8 n8

/-- The register rows of Group CB (R76). -/
def cbRegInstr (o : CbOp) (r : R8) : Instr :=
  match o with
  | .rot .rlc => .rlcR8 r
  | .rot .rrc => .rrcR8 r
  | .rot .rl => .rlR8 r
  | .rot .rr => .rrR8 r
  | .rot .sla => .slaR8 r
  | .rot .sra => .sraR8 r
  | .rot .swap => .swapR8 r
  | .rot .srl => .srlR8 r
  | .bit b => .bitR8 b r
  | .res b => .resR8 b r
  | .set b => .setR8 b r

/-- The `[HL]` rows of Group CB (R76). -/
def cbHlInstr (o : CbOp) : Instr :=
  match o with
  | .rot .rlc => .rlcHl
  | .rot .rrc => .rrcHl
  | .rot .rl => .rlHl
  | .rot .rr => .rrHl
  | .rot .sla => .slaHl
  | .rot .sra => .sraHl
  | .rot .swap => .swapHl
  | .rot .srl => .srlHl
  | .bit b => .bitHl b
  | .res b => .resHl b
  | .set b => .setHl b

/-- Group CB, from the second byte (R76, R221). All 256 values are instructions (R79). -/
def decodeCb (cb : Byte) : Instr :=
  match operand8 (fieldZ cb) with
  | .reg r => cbRegInstr (cbOpOf cb) r
  | .indHL => cbHlInstr (cbOpOf cb)

/-- Group 0 (R72). -/
def decodeGroup0 (op n8 : Byte) (n16 : Word) : Instr :=
  match (fieldZ op).toNat with
  | 0 =>
    match (fieldY op).toNat with
    | 0 => .nop
    | 1 => .ldA16Sp n16
    | 2 => .stop
    | 3 => .jr n8
    | _ => .jrCc (condOf (fieldCc op)) n8
  | 1 => if fieldQ op then .addHlR16 (operand16 (fieldP op)) else .ldR16N16 (operand16 (fieldP op)) n16
  | 2 =>
    match (fieldP op).toNat, fieldQ op with
    | 0, false => .ldBcA
    | 1, false => .ldDeA
    | 2, false => .ldHliA
    | _, false => .ldHldA
    | 0, true => .ldABc
    | 1, true => .ldADe
    | 2, true => .ldAHli
    | _, true => .ldAHld
  | 3 => if fieldQ op then .decR16 (operand16 (fieldP op)) else .incR16 (operand16 (fieldP op))
  | 4 =>
    match operand8 (fieldY op) with
    | .reg r => .incR8 r
    | .indHL => .incHl
  | 5 =>
    match operand8 (fieldY op) with
    | .reg r => .decR8 r
    | .indHL => .decHl
  | 6 =>
    match operand8 (fieldY op) with
    | .reg r => .ldR8N8 r n8
    | .indHL => .ldHlN8 n8
  | _ =>
    match (fieldY op).toNat with
    | 0 => .rlca
    | 1 => .rrca
    | 2 => .rla
    | 3 => .rra
    | 4 => .daa
    | 5 => .cpl
    | 6 => .scf
    | _ => .ccf

/-- Group 1 (R73): the slot where both fields name `[HL]` is HALT (R78). -/
def decodeGroup1 (op : Byte) : Instr :=
  match operand8 (fieldY op), operand8 (fieldZ op) with
  | .reg dst, .reg src => .ldR8R8 dst src
  | .reg dst, .indHL => .ldR8Hl dst
  | .indHL, .reg src => .ldHlR8 src
  | .indHL, .indHL => .halt

/-- Group 2 (R74). -/
def decodeGroup2 (op : Byte) : Instr :=
  match operand8 (fieldZ op) with
  | .reg r => aluRegInstr (aluOf (fieldY op)) r
  | .indHL => aluHlInstr (aluOf (fieldY op))

/-- Group 3 (R75), with the prefix row (R221) and the eleven undefined opcodes (R77, R222). -/
def decodeGroup3 (op n8 : Byte) (n16 : Word) : Instr :=
  match (fieldZ op).toNat with
  | 0 =>
    match (fieldY op).toNat with
    | 4 => .ldhA8A n8
    | 5 => .addSpE8 n8
    | 6 => .ldhAA8 n8
    | 7 => .ldHlSpE8 n8
    | _ => .retCc (condOf (fieldCc op))
  | 1 =>
    match (fieldP op).toNat, fieldQ op with
    | 0, false => .popR16 .bc
    | 1, false => .popR16 .de
    | 2, false => .popR16 .hl
    | _, false => .popAf
    | 0, true => .ret
    | 1, true => .reti
    | 2, true => .jpHl
    | _, true => .ldSpHl
  | 2 =>
    match (fieldY op).toNat with
    | 4 => .ldhCA
    | 5 => .ldA16A n16
    | 6 => .ldhAC
    | 7 => .ldAA16 n16
    | _ => .jpCc (condOf (fieldCc op)) n16
  | 3 =>
    match (fieldY op).toNat with
    | 0 => .jp n16
    | 1 => .prefixCB
    | 2 => .undefinedD3
    | 3 => .undefinedDB
    | 4 => .undefinedE3
    | 5 => .undefinedEB
    | 6 => .di
    | _ => .ei
  | 4 =>
    match (fieldY op).toNat with
    | 4 => .undefinedE4
    | 5 => .undefinedEC
    | 6 => .undefinedF4
    | 7 => .undefinedFC
    | _ => .callCc (condOf (fieldCc op)) n16
  | 5 =>
    match (fieldP op).toNat, fieldQ op with
    | 0, false => .pushR16 .bc
    | 1, false => .pushR16 .de
    | 2, false => .pushR16 .hl
    | _, false => .pushAf
    | 0, true => .call n16
    | 1, true => .undefinedDD
    | 2, true => .undefinedED
    | _, true => .undefinedFD
  | 6 => aluN8Instr (aluOf (fieldY op)) n8
  | _ => .rst (fieldY op)

/-- The row of the first byte (R61): routed "by the top two bits of the byte to one of four groups". `n8` and `n16` are
the operand bytes, where the row has any (`operandBytes`); a row that has none does not look at them. -/
def decodeFirst (op n8 : Byte) (n16 : Word) : Instr :=
  match (fieldX op).toNat with
  | 0 => decodeGroup0 op n8 n16
  | 1 => decodeGroup1 op
  | 2 => decodeGroup2 op
  | _ => decodeGroup3 op n8 n16

/-! ### Formats and lengths (R60) -/

/-- The instruction formats of R60. -/
inductive Format where
  | op | opN8 | opE8 | opN16 | cbOp | prefixByte | illegal
deriving DecidableEq, Repr

/-- The bytes of a format, the opcode byte or bytes included (R60). -/
def formatLength : Format → Nat
  | .op => 1
  | .opN8 => 2
  | .opE8 => 2
  | .opN16 => 3
  | .cbOp => 2
  | .prefixByte => 1
  | .illegal => 1

/-- The format of each instruction (R60, and the "Encoding" line of each instruction's rule). -/
def instrFormat : Instr → Format
  | .nop => .op
  | .ldR16N16 _ _ => .opN16
  | .ldBcA => .op
  | .ldDeA => .op
  | .ldHliA => .op
  | .ldHldA => .op
  | .ldABc => .op
  | .ldADe => .op
  | .ldAHli => .op
  | .ldAHld => .op
  | .ldA16Sp _ => .opN16
  | .incR16 _ => .op
  | .decR16 _ => .op
  | .addHlR16 _ => .op
  | .incR8 _ => .op
  | .incHl => .op
  | .decR8 _ => .op
  | .decHl => .op
  | .ldR8N8 _ _ => .opN8
  | .ldHlN8 _ => .opN8
  | .rlca => .op
  | .rrca => .op
  | .rla => .op
  | .rra => .op
  | .daa => .op
  | .cpl => .op
  | .scf => .op
  | .ccf => .op
  | .jr _ => .opE8
  | .jrCc _ _ => .opE8
  | .stop => .op
  | .ldR8R8 _ _ => .op
  | .ldR8Hl _ => .op
  | .ldHlR8 _ => .op
  | .halt => .op
  | .addAR8 _ => .op
  | .addAHl => .op
  | .adcAR8 _ => .op
  | .adcAHl => .op
  | .subR8 _ => .op
  | .subHl => .op
  | .sbcAR8 _ => .op
  | .sbcAHl => .op
  | .andR8 _ => .op
  | .andHl => .op
  | .xorR8 _ => .op
  | .xorHl => .op
  | .orR8 _ => .op
  | .orHl => .op
  | .cpR8 _ => .op
  | .cpHl => .op
  | .addAN8 _ => .opN8
  | .adcAN8 _ => .opN8
  | .subN8 _ => .opN8
  | .sbcAN8 _ => .opN8
  | .andN8 _ => .opN8
  | .xorN8 _ => .opN8
  | .orN8 _ => .opN8
  | .cpN8 _ => .opN8
  | .popR16 _ => .op
  | .popAf => .op
  | .pushR16 _ => .op
  | .pushAf => .op
  | .ldhCA => .op
  | .ldhA8A _ => .opN8
  | .ldA16A _ => .opN16
  | .ldhAC => .op
  | .ldhAA8 _ => .opN8
  | .ldAA16 _ => .opN16
  | .addSpE8 _ => .opE8
  | .ldHlSpE8 _ => .opE8
  | .ldSpHl => .op
  | .retCc _ => .op
  | .ret => .op
  | .reti => .op
  | .jpCc _ _ => .opN16
  | .jp _ => .opN16
  | .jpHl => .op
  | .callCc _ _ => .opN16
  | .call _ => .opN16
  | .rst _ => .op
  | .di => .op
  | .ei => .op
  | .prefixCB => .prefixByte
  | .undefinedD3 => .illegal
  | .undefinedDB => .illegal
  | .undefinedDD => .illegal
  | .undefinedE3 => .illegal
  | .undefinedE4 => .illegal
  | .undefinedEB => .illegal
  | .undefinedEC => .illegal
  | .undefinedED => .illegal
  | .undefinedF4 => .illegal
  | .undefinedFC => .illegal
  | .undefinedFD => .illegal
  | .rlcR8 _ => .cbOp
  | .rlcHl => .cbOp
  | .rrcR8 _ => .cbOp
  | .rrcHl => .cbOp
  | .rlR8 _ => .cbOp
  | .rlHl => .cbOp
  | .rrR8 _ => .cbOp
  | .rrHl => .cbOp
  | .slaR8 _ => .cbOp
  | .slaHl => .cbOp
  | .sraR8 _ => .cbOp
  | .sraHl => .cbOp
  | .swapR8 _ => .cbOp
  | .swapHl => .cbOp
  | .srlR8 _ => .cbOp
  | .srlHl => .cbOp
  | .bitR8 _ _ => .cbOp
  | .bitHl _ => .cbOp
  | .resR8 _ _ => .cbOp
  | .resHl _ => .cbOp
  | .setR8 _ _ => .cbOp
  | .setHl _ => .cbOp

/-- How many operand bytes follow the first byte: "the length is a function of the first byte alone" (R60). The row, and
so its format, does not depend on the operand bytes. The prefix byte has none of its own: its second byte is an opcode. -/
def operandBytes (op : Byte) : Nat :=
  formatLength (instrFormat (decodeFirst op 0#8 0#16)) - 1

/-! ### The decoder -/

/-- Why a list of bytes holds no instruction. There is no other reason: every first byte and every CB second byte has a
row (R79). -/
inductive DecodeError where
  /-- There is no byte at all. -/
  | noByte
  /-- The first byte `op` asks for more operand bytes than there are. -/
  | truncated (op : Byte)
deriving DecidableEq, Repr

/-- The instruction at the head of a list of bytes, and the bytes after it (R60, R61, R71, R79). A prefix byte with
nothing after it is the prefix row alone (R221; log entry 5). -/
def decode : List Byte → Except DecodeError (Instr × List Byte)
  | [] => .error .noByte
  | op :: rest =>
    if op = Config.prefixByte then
      match rest with
      | [] => .ok (.prefixCB, [])
      | cb :: rest => .ok (decodeCb cb, rest)
    else
      match operandBytes op, rest with
      | 0, rest => .ok (decodeFirst op 0#8 0#16, rest)
      | 1, n8 :: rest => .ok (decodeFirst op n8 0#16, rest)
      | 2, lo :: hi :: rest => .ok (decodeFirst op 0#8 (leWord lo hi), rest)
      | _, _ => .error (.truncated op)

/-! ### The encoder -/

/-- An opcode byte from its fields x, y, z (R62). -/
def opXyz (x : BitVec 2) (y z : BitVec 3) : Byte := x ++ y ++ z

/-- An opcode byte from its fields x, p, q, z (R62). -/
def opXpqz (x p : BitVec 2) (q : BitVec 1) (z : BitVec 3) : Byte := x ++ p ++ q ++ z

/-- An opcode byte of a conditional instruction: bit 5, then `cc` in bits 4:3 (R67). -/
def opCc (x : BitVec 2) (bit5 : BitVec 1) (cc : Cond) (z : BitVec 3) : Byte := x ++ bit5 ++ condCode cc ++ z

/-- The two bytes of a CB instruction (R60, R76). -/
def cbBytes (cls : BitVec 2) (y z : BitVec 3) : List Byte := [Config.prefixByte, opXyz cls y z]

/-- The bytes of an instruction, lowest address first (R60, R71 to R77). -/
def encode : Instr → List Byte
  -- Group 0 (R72)
  | .nop => [0x00#8]
  | .ldR16N16 rr n16 => [opXpqz 0b00#2 (r16Code rr) 0#1 0b001#3, loByte n16, hiByte n16]
  | .ldBcA => [0x02#8]
  | .ldDeA => [0x12#8]
  | .ldHliA => [0x22#8]
  | .ldHldA => [0x32#8]
  | .ldABc => [0x0A#8]
  | .ldADe => [0x1A#8]
  | .ldAHli => [0x2A#8]
  | .ldAHld => [0x3A#8]
  | .ldA16Sp a16 => [0x08#8, loByte a16, hiByte a16]
  | .incR16 rr => [opXpqz 0b00#2 (r16Code rr) 0#1 0b011#3]
  | .decR16 rr => [opXpqz 0b00#2 (r16Code rr) 1#1 0b011#3]
  | .addHlR16 rr => [opXpqz 0b00#2 (r16Code rr) 1#1 0b001#3]
  | .incR8 r => [opXyz 0b00#2 (r8Code r) 0b100#3]
  | .incHl => [opXyz 0b00#2 indHlCode 0b100#3]
  | .decR8 r => [opXyz 0b00#2 (r8Code r) 0b101#3]
  | .decHl => [opXyz 0b00#2 indHlCode 0b101#3]
  | .ldR8N8 r n8 => [opXyz 0b00#2 (r8Code r) 0b110#3, n8]
  | .ldHlN8 n8 => [opXyz 0b00#2 indHlCode 0b110#3, n8]
  | .rlca => [0x07#8]
  | .rrca => [0x0F#8]
  | .rla => [0x17#8]
  | .rra => [0x1F#8]
  | .daa => [0x27#8]
  | .cpl => [0x2F#8]
  | .scf => [0x37#8]
  | .ccf => [0x3F#8]
  | .jr e8 => [0x18#8, e8]
  | .jrCc cc e8 => [opCc 0b00#2 1#1 cc 0b000#3, e8]
  | .stop => [0x10#8]
  -- Group 1 (R73)
  | .ldR8R8 dst src => [opXyz 0b01#2 (r8Code dst) (r8Code src)]
  | .ldR8Hl dst => [opXyz 0b01#2 (r8Code dst) indHlCode]
  | .ldHlR8 src => [opXyz 0b01#2 indHlCode (r8Code src)]
  | .halt => [0x76#8]
  -- Group 2 (R74)
  | .addAR8 r => [opXyz 0b10#2 (aluCode .add) (r8Code r)]
  | .addAHl => [opXyz 0b10#2 (aluCode .add) indHlCode]
  | .adcAR8 r => [opXyz 0b10#2 (aluCode .adc) (r8Code r)]
  | .adcAHl => [opXyz 0b10#2 (aluCode .adc) indHlCode]
  | .subR8 r => [opXyz 0b10#2 (aluCode .sub) (r8Code r)]
  | .subHl => [opXyz 0b10#2 (aluCode .sub) indHlCode]
  | .sbcAR8 r => [opXyz 0b10#2 (aluCode .sbc) (r8Code r)]
  | .sbcAHl => [opXyz 0b10#2 (aluCode .sbc) indHlCode]
  | .andR8 r => [opXyz 0b10#2 (aluCode .and) (r8Code r)]
  | .andHl => [opXyz 0b10#2 (aluCode .and) indHlCode]
  | .xorR8 r => [opXyz 0b10#2 (aluCode .xor) (r8Code r)]
  | .xorHl => [opXyz 0b10#2 (aluCode .xor) indHlCode]
  | .orR8 r => [opXyz 0b10#2 (aluCode .or) (r8Code r)]
  | .orHl => [opXyz 0b10#2 (aluCode .or) indHlCode]
  | .cpR8 r => [opXyz 0b10#2 (aluCode .cp) (r8Code r)]
  | .cpHl => [opXyz 0b10#2 (aluCode .cp) indHlCode]
  -- Group 3 (R75)
  | .addAN8 n8 => [opXyz 0b11#2 (aluCode .add) 0b110#3, n8]
  | .adcAN8 n8 => [opXyz 0b11#2 (aluCode .adc) 0b110#3, n8]
  | .subN8 n8 => [opXyz 0b11#2 (aluCode .sub) 0b110#3, n8]
  | .sbcAN8 n8 => [opXyz 0b11#2 (aluCode .sbc) 0b110#3, n8]
  | .andN8 n8 => [opXyz 0b11#2 (aluCode .and) 0b110#3, n8]
  | .xorN8 n8 => [opXyz 0b11#2 (aluCode .xor) 0b110#3, n8]
  | .orN8 n8 => [opXyz 0b11#2 (aluCode .or) 0b110#3, n8]
  | .cpN8 n8 => [opXyz 0b11#2 (aluCode .cp) 0b110#3, n8]
  | .popR16 rr => [opXpqz 0b11#2 (r16StkCode rr) 0#1 0b001#3]
  | .popAf => [0xF1#8]
  | .pushR16 rr => [opXpqz 0b11#2 (r16StkCode rr) 0#1 0b101#3]
  | .pushAf => [0xF5#8]
  | .ldhCA => [0xE2#8]
  | .ldhA8A a8 => [0xE0#8, a8]
  | .ldA16A a16 => [0xEA#8, loByte a16, hiByte a16]
  | .ldhAC => [0xF2#8]
  | .ldhAA8 a8 => [0xF0#8, a8]
  | .ldAA16 a16 => [0xFA#8, loByte a16, hiByte a16]
  | .addSpE8 e8 => [0xE8#8, e8]
  | .ldHlSpE8 e8 => [0xF8#8, e8]
  | .ldSpHl => [0xF9#8]
  | .retCc cc => [opCc 0b11#2 0#1 cc 0b000#3]
  | .ret => [0xC9#8]
  | .reti => [0xD9#8]
  | .jpCc cc a16 => [opCc 0b11#2 0#1 cc 0b010#3, loByte a16, hiByte a16]
  | .jp a16 => [0xC3#8, loByte a16, hiByte a16]
  | .jpHl => [0xE9#8]
  | .callCc cc a16 => [opCc 0b11#2 0#1 cc 0b100#3, loByte a16, hiByte a16]
  | .call a16 => [0xCD#8, loByte a16, hiByte a16]
  | .rst t => [opXyz 0b11#2 t 0b111#3]
  | .di => [0xF3#8]
  | .ei => [0xFB#8]
  | .prefixCB => [Config.prefixByte]
  | .undefinedD3 => [0xD3#8]
  | .undefinedDB => [0xDB#8]
  | .undefinedDD => [0xDD#8]
  | .undefinedE3 => [0xE3#8]
  | .undefinedE4 => [0xE4#8]
  | .undefinedEB => [0xEB#8]
  | .undefinedEC => [0xEC#8]
  | .undefinedED => [0xED#8]
  | .undefinedF4 => [0xF4#8]
  | .undefinedFC => [0xFC#8]
  | .undefinedFD => [0xFD#8]
  -- Group CB (R76)
  | .rlcR8 r => cbBytes 0b00#2 (rotCode .rlc) (r8Code r)
  | .rlcHl => cbBytes 0b00#2 (rotCode .rlc) indHlCode
  | .rrcR8 r => cbBytes 0b00#2 (rotCode .rrc) (r8Code r)
  | .rrcHl => cbBytes 0b00#2 (rotCode .rrc) indHlCode
  | .rlR8 r => cbBytes 0b00#2 (rotCode .rl) (r8Code r)
  | .rlHl => cbBytes 0b00#2 (rotCode .rl) indHlCode
  | .rrR8 r => cbBytes 0b00#2 (rotCode .rr) (r8Code r)
  | .rrHl => cbBytes 0b00#2 (rotCode .rr) indHlCode
  | .slaR8 r => cbBytes 0b00#2 (rotCode .sla) (r8Code r)
  | .slaHl => cbBytes 0b00#2 (rotCode .sla) indHlCode
  | .sraR8 r => cbBytes 0b00#2 (rotCode .sra) (r8Code r)
  | .sraHl => cbBytes 0b00#2 (rotCode .sra) indHlCode
  | .swapR8 r => cbBytes 0b00#2 (rotCode .swap) (r8Code r)
  | .swapHl => cbBytes 0b00#2 (rotCode .swap) indHlCode
  | .srlR8 r => cbBytes 0b00#2 (rotCode .srl) (r8Code r)
  | .srlHl => cbBytes 0b00#2 (rotCode .srl) indHlCode
  | .bitR8 b r => cbBytes 0b01#2 b (r8Code r)
  | .bitHl b => cbBytes 0b01#2 b indHlCode
  | .resR8 b r => cbBytes 0b10#2 b (r8Code r)
  | .resHl b => cbBytes 0b10#2 b indHlCode
  | .setR8 b r => cbBytes 0b11#2 b (r8Code r)
  | .setHl b => cbBytes 0b11#2 b indHlCode

/-! ### The host's entry point -/

/-- The three bytes of an instruction of at most 24 bits, bit 0 of `w` the least significant bit of the first byte;
every bit above `nbits` is 0. -/
def tableBytes (nbits w : Nat) : List Byte :=
  (List.range 3).map fun k => BitVec.ofNat 8 ((w % 2 ^ nbits) >>> (8 * k))

/-- The instruction the decoder reads from an instruction whose bits are `w`: first from the bytes the table gives the
row, and where those leave out operand bytes, from the same bytes with zeros after them. The table gives the prefix row
the single byte 0xCB, which is that row alone (log entry 5). -/
def decodeTableWord (nbits w : Nat) : Option Instr :=
  match decode ((tableBytes nbits w).take (nbits / 8)) with
  | .ok (i, _) => some i
  | .error _ =>
    match decode (tableBytes nbits w) with
    | .ok (i, _) => some i
    | .error _ => none

end Sys2Proof
end

