-- ==== Sys2Proof/Machine/State.lean ====
section
/-! DEFINITION. The complete state of the machine (10_state.md: "and nothing else", rule R24), the five fault kinds of
60_exceptions.md rule R270, the refusals, and the state after reset (rule R25). -/

namespace Sys2Proof.Machine

/-- Memory (R21, R30): the listed bytes, addresses strictly rising, no listed byte equal to 0x00, which is what an
unlisted address reads as ("zero-filled", R21, R25). `Memory.wf` (Machine/Memory.lean) says so. -/
abbrev Memory := List Host.Cell

/-- The pending-enable field `ime_pend` (R23). -/
inductive ImePend where
  /-- No enable in flight. -/
  | none
  /-- EI executed in the current step; only inside that step (R282). -/
  | armed1
  /-- The enable fires at the end of the next executed instruction. -/
  | armed0
deriving DecidableEq, Repr

/-- The state (10_state.md). AF, BC, DE and HL are views of the eight registers (R11). -/
structure State where
  /-- Accumulator (R10). -/
  a : Byte
  /-- Flag byte: bit 7 Z, 6 N, 5 H, 4 C (R14); bits 3:0 are 0 in every reachable state (R15). -/
  f : Byte
  b : Byte
  c : Byte
  d : Byte
  e : Byte
  h : Byte
  l : Byte
  /-- Program counter (R18): the address of the next byte to fetch. -/
  pc : Word
  /-- Stack pointer (R20). -/
  sp : Word
  /-- Memory (R21). -/
  mem : Memory
  /-- Interrupt master enable (R22). -/
  ime : Bool
  /-- Pending enable (R23). -/
  imePend : ImePend
deriving DecidableEq, Repr

/-- The fault kinds (R270). Each ends the step with no state after it (R271, R272, decisions D11, D12): safe, since
nothing can be proved from a state that is not there. -/
inductive Fault where
  /-- Raised by `loadImage` only: the image is longer than 65280 bytes (R49, R277). Safe. -/
  | capacityExceeded
  /-- Raised by `fetch8`: a byte is to be fetched at PC = 0xFFFF (R36, R273). Silicon wraps PC to 0x0000. Safe. -/
  | counterOverflow
  /-- Raised by `push16` with SP < 2 and by `pop16` with SP > 0xFFFD (R38, R39, R274). Silicon wraps SP. Safe. -/
  | stackOverflow
  /-- Raised by `read16` and `write16` at address 0xFFFF (R34, R35, R275, decision D3). Silicon wraps. Safe. -/
  | outOfBounds
  /-- Raised by the eleven undefined opcodes, with the opcode byte (R222, R276). Silicon locks up. Safe. -/
  | undefinedOpcode (op : Byte)
deriving DecidableEq, Repr

/-- What the model declines to run. -/
inductive Refusal where
  /-- An instruction with no meaning yet; no arm of `exec` says so. Safe. -/
  | notModelled (mnemonic : String)
  /-- Raised by HALT only when `Config.haltMode` is `stuck` (R4, R153, U6); under the default `placeholder` nothing
  raises it. Safe. -/
  | haltStuck
deriving DecidableEq, Repr

/-- What an instruction's meaning answers. -/
abbrev Result := Host.Outcome State Fault Refusal

/-- The state after `construct` (R5, R25, R300). -/
def State.reset : State where
  a := 0x00#8
  f := 0x00#8
  b := 0x00#8
  c := 0x00#8
  d := 0x00#8
  e := 0x00#8
  h := 0x00#8
  l := 0x00#8
  pc := Config.pcReset
  sp := Config.spReset
  mem := []
  ime := false
  imePend := .none

end Sys2Proof.Machine
end

