-- ==== Sys2Proof/Machine/Memory.lean ====
section
/-! DEFINITION. The byte array of 10_state.md rule R21, held as a canonical list of cells: what an unlisted address reads
as, reading and writing one cell, and the form the list keeps. Addresses are `Nat` here; every access comes from a
16-bit address, so it is below 65536 (20_memory.md rule R30). -/

namespace Sys2Proof.Machine

/-- What an address that no cell lists reads as: 0x00, the reset contents ("zero-filled", R21, R25). -/
def blankByte : Byte := 0x00#8

/-- `mem[addr]` (R32). -/
def Memory.get : Memory → Nat → Byte
  | [], _ => blankByte
  | (k, v) :: m, addr => if k = addr then v else Memory.get m addr

/-- Puts a cell in front of the first cell with a higher address. -/
def Memory.insertCell : Memory → Nat → Byte → Memory
  | [], addr, v => [(addr, v)]
  | (k, x) :: m, addr, v =>
    if k < addr then (k, x) :: Memory.insertCell m addr v else (addr, v) :: (k, x) :: m

/-- The memory with every cell of one address taken out: that address reads as blank. -/
def Memory.erase (m : Memory) (addr : Nat) : Memory :=
  m.filter fun cell => cell.1 != addr

/-- `mem[addr] <- v` (R33). Writing what an unlisted address reads as removes the cell. -/
def Memory.set (m : Memory) (addr : Nat) (v : Byte) : Memory :=
  if v = blankByte then Memory.erase m addr else Memory.insertCell (Memory.erase m addr) addr v

/-- All cells lie at or above `low`, strictly rising, below 65536, none of them blank. -/
def Memory.wfFrom : Nat → Memory → Bool
  | _, [] => true
  | low, (k, v) :: m => decide (low ≤ k) && decide (k < Config.memSize) && v != blankByte && Memory.wfFrom (k + 1) m

/-- The canonical form: two well-formed memories that read alike at every address are the same list. -/
def Memory.wf (m : Memory) : Bool := Memory.wfFrom 0 m

end Sys2Proof.Machine
end

