-- ==== Sys2Proof/Machine/Ops.lean ====
section
/-! DEFINITION. The named operations every instruction rule is written in: register pairs (10_state.md rules R11, R12), the
memory primitives `MemRead`, `MemWrite`, `Fetch8`, `Fetch16`, `Push16`, `Pop16` (20_memory.md rules R32 to R39), and
delivering a fault (60_exceptions.md rule R271). The spec has no exception entry and no return from one (rule R285):
a fault is an outcome of the step, with no state after it. -/

namespace Sys2Proof.Machine

/-! ### Registers (R11, R12) -/

/-- The pair AF: A in bits 15:8, F in bits 7:0 (R11). -/
def State.af (s : State) : Word := s.a ++ s.f

/-- The pair BC (R11). -/
def State.bc (s : State) : Word := s.b ++ s.c

/-- The pair DE (R11). -/
def State.de (s : State) : Word := s.d ++ s.e

/-- The pair HL (R11). -/
def State.hl (s : State) : Word := s.h ++ s.l

/-- `BC <- v` (R11). -/
def State.setBc (s : State) (v : Word) : State := { s with b := hiByte v, c := loByte v }

/-- `DE <- v` (R11). -/
def State.setDe (s : State) (v : Word) : State := { s with d := hiByte v, e := loByte v }

/-- `HL <- v` (R11). -/
def State.setHl (s : State) (v : Word) : State := { s with h := hiByte v, l := loByte v }

/-- `AF <- v` with the low nibble of F masked to zero (R11, R15, R189, decision D6). -/
def State.setAf (s : State) (v : Word) : State := { s with a := hiByte v, f := loByte v &&& 0xF0#8 }

/-- `A <- v`. -/
def State.setA (s : State) (v : Byte) : State := { s with a := v }

/-- `F <- v`. -/
def State.setF (s : State) (v : Byte) : State := { s with f := v }

/-- `PC <- v` (R18). -/
def State.setPc (s : State) (v : Word) : State := { s with pc := v }

/-- `SP <- v` (R20). -/
def State.setSp (s : State) (v : Word) : State := { s with sp := v }

/-- `ime <- v` (R22). -/
def State.setIme (s : State) (v : Bool) : State := { s with ime := v }

/-- `ime_pend <- v` (R23). -/
def State.setImePend (s : State) (v : ImePend) : State := { s with imePend := v }

/-! ### Faults (R271) -/

/-- `raise K`: the operation ends with `K`; nothing after it runs. -/
def raise {α : Type} (k : Fault) : Except Fault α := .error k

/-- Ends an instruction with what a primitive raised, or goes on with what it returned (R271). -/
def andThen {α : Type} (x : Except Fault α) (k : α → Result) : Result :=
  match x with
  | .ok v => k v
  | .error fault => .fault fault

/-! ### Memory primitives (R32 to R39) -/

/-- `MemRead(addr, 1)` (R32). -/
def read8 (s : State) (addr : Word) : Byte := Memory.get s.mem addr.toNat

/-- `MemWrite(addr, 1, v)` (R33). -/
def write8 (s : State) (addr : Word) (v : Byte) : State := { s with mem := Memory.set s.mem addr.toNat v }

/-- `MemRead(addr, 2)`, little-endian, refused at 0xFFFF (R34, decision D3). -/
def read16 (s : State) (addr : Word) : Except Fault Word :=
  if addr = 0xFFFF#16 then raise .outOfBounds else .ok (leWord (read8 s addr) (read8 s (addr + 1#16)))

/-- `MemWrite(addr, 2, v)`, little-endian, refused at 0xFFFF (R35, decision D3). -/
def write16 (s : State) (addr v : Word) : Except Fault State :=
  if addr = 0xFFFF#16 then raise .outOfBounds
  else .ok (write8 (write8 s addr (loByte v)) (addr + 1#16) (hiByte v))

/-- `Fetch8()` (R36): the byte at PC, and the state with PC advanced. -/
def fetch8 (s : State) : Except Fault (Byte × State) :=
  if s.pc = 0xFFFF#16 then raise .counterOverflow else .ok (read8 s s.pc, s.setPc (s.pc + 1#16))

/-- `Fetch16()` (R37): two fetches, low byte first. -/
def fetch16 (s : State) : Except Fault (Word × State) :=
  match fetch8 s with
  | .error fault => raise fault
  | .ok (lo, s) =>
    match fetch8 s with
    | .error fault => raise fault
    | .ok (hi, s) => .ok (leWord lo hi, s)

/-- `Push16(v)` (R38). -/
def push16 (s : State) (v : Word) : Except Fault State :=
  if s.sp < 2#16 then raise .stackOverflow else write16 (s.setSp (s.sp - 2#16)) (s.sp - 2#16) v

/-- `Pop16()` (R39): the read comes before the pointer check. At SP = 0xFFFC it succeeds and SP becomes 0xFFFE, as R39,
R40 and the examples of R188 and R210 to R212 have it; R303 and the consequence drawn in R274 say that the pop which would return
SP to 0xFFFE faults, and no ruling of 90_conflicts.md settles it (DESIGN CHOICE, unsafe, log entry 15). -/
def pop16 (s : State) : Except Fault (Word × State) :=
  match read16 s s.sp with
  | .error fault => raise fault
  | .ok v => if 0xFFFD#16 < s.sp then raise .stackOverflow else .ok (v, s.setSp (s.sp + 2#16))

end Sys2Proof.Machine
end

