-- ==== Sys2Proof/Machine/Operands.lean ====
section
/-! DEFINITION. The operand forms of 30_encoding.md: `r8[c]` with the memory operand `[HL]` (rule R63), `r16[p]` (R64),
`r16stk[p]` (R65), `cond(cc)` (R67), the high page and the signed displacement (R71). -/

namespace Sys2Proof.Machine

/-- Reading an 8-bit register (R13, R63). -/
def State.getR8 (s : State) : R8 → Byte
  | .b => s.b
  | .c => s.c
  | .d => s.d
  | .e => s.e
  | .h => s.h
  | .l => s.l
  | .a => s.a

/-- Writing an 8-bit register (R13, R63). -/
def State.putR8 (s : State) (r : R8) (v : Byte) : State :=
  match r with
  | .b => { s with b := v }
  | .c => { s with c := v }
  | .d => { s with d := v }
  | .e => { s with e := v }
  | .h => { s with h := v }
  | .l => { s with l := v }
  | .a => { s with a := v }

/-- Reading `r8[c]`: code 6 is `MemRead(HL, 1)` (R63, R9). -/
def readOperand8 (s : State) : Operand8 → Byte
  | .reg r => s.getR8 r
  | .indHL => read8 s s.hl

/-- Writing `r8[c]`: code 6 is `MemWrite(HL, 1, v)`, HL read when the access is made (R63). -/
def writeOperand8 (s : State) (o : Operand8) (v : Byte) : State :=
  match o with
  | .reg r => s.putR8 r v
  | .indHL => write8 s s.hl v

/-- Reading `r16[p]` (R64). -/
def State.getR16 (s : State) : R16 → Word
  | .bc => s.bc
  | .de => s.de
  | .hl => s.hl
  | .sp => s.sp

/-- Writing `r16[p]` (R64). -/
def State.putR16 (s : State) (rr : R16) (v : Word) : State :=
  match rr with
  | .bc => s.setBc v
  | .de => s.setDe v
  | .hl => s.setHl v
  | .sp => s.setSp v

/-- Reading `r16stk[p]` for BC, DE, HL (R65). -/
def State.getR16Stk (s : State) : R16Stk → Word
  | .bc => s.bc
  | .de => s.de
  | .hl => s.hl

/-- Writing `r16stk[p]` for BC, DE, HL (R65). -/
def State.putR16Stk (s : State) (rr : R16Stk) (v : Word) : State :=
  match rr with
  | .bc => s.setBc v
  | .de => s.setDe v
  | .hl => s.setHl v

/-- The address `0xFF00 + zext_16(offset)` of the high-page forms (R71, R192, decision D22). -/
def highPage (offset : Byte) : Word := 0xFF00#16 + offset.zeroExtend 16

/-- `sext_16(e8)` (R9, R71). -/
def signExtend16 (e8 : Byte) : Word := e8.signExtend 16

/-- The address `ttt * 8` of an RST (R70, R218). -/
def rstTarget (t : BitVec 3) : Word := t.zeroExtend 16 * 8#16

end Sys2Proof.Machine
end

