-- ==== Sys2Proof/Machine/Flags.lean ====
section
/-! DEFINITION. The flag byte (10_state.md rules R14, R15), the conditions (30_encoding.md rule R67) and every helper of
40_arith_helpers.md (rules R90 to R102). Sums and differences are computed on unbounded integers and narrowed at the
end; `n / 16` and `n % 16` are the nibbles of a byte. -/

namespace Sys2Proof.Machine

/-! ### The flag byte -/

/-- `z:n:h:c:0b0000` (R9, R14, R15). -/
def packFlags (z n h c : Bool) : Byte :=
  BitVec.ofBool z ++ BitVec.ofBool n ++ BitVec.ofBool h ++ BitVec.ofBool c ++ 0b0000#4

/-- F[7], zero (R14). -/
def State.flagZ (s : State) : Bool := s.f.getLsbD 7

/-- F[6], subtract (R14). -/
def State.flagN (s : State) : Bool := s.f.getLsbD 6

/-- F[5], half-carry (R14). -/
def State.flagH (s : State) : Bool := s.f.getLsbD 5

/-- F[4], carry (R14). -/
def State.flagC (s : State) : Bool := s.f.getLsbD 4

/-- `flags <- (z, n, h, c)` (R9). -/
def State.setFlags (s : State) (z n h c : Bool) : State := s.setF (packFlags z n h c)

/-- `cond(cc)` (R67). -/
def State.cond (s : State) : Cond → Bool
  | .nz => !s.flagZ
  | .z => s.flagZ
  | .nc => !s.flagC
  | .c => s.flagC

/-! ### 8-bit arithmetic (R90 to R95, R98, R99) -/

/-- A helper's result and its four flags. -/
structure Alu8 where
  r : Byte
  z : Bool
  n : Bool
  h : Bool
  c : Bool
deriving DecidableEq, Repr

/-- A carry flag as a number, 0 or 1. -/
def carryIn (c : Bool) : Nat := if c then 1 else 0

/-- `adc8(a, b, cin)` (R91). -/
def adc8 (a b : Byte) (cin : Bool) : Alu8 :=
  let r := BitVec.ofNat 8 (a.toNat + b.toNat + carryIn cin)
  { r := r
    z := r == 0#8
    n := false
    h := decide (a.toNat % 16 + b.toNat % 16 + carryIn cin > 15)
    c := decide (a.toNat + b.toNat + carryIn cin > 255) }

/-- `add8(a, b)` (R90). -/
def add8 (a b : Byte) : Alu8 :=
  let r := BitVec.ofNat 8 (a.toNat + b.toNat)
  { r := r
    z := r == 0#8
    n := false
    h := decide (a.toNat % 16 + b.toNat % 16 > 15)
    c := decide (a.toNat + b.toNat > 255) }

/-- `sub8(a, b)` (R92); C is the borrow. -/
def sub8 (a b : Byte) : Alu8 :=
  let r := BitVec.ofInt 8 ((a.toNat : Int) - b.toNat)
  { r := r
    z := r == 0#8
    n := true
    h := decide (b.toNat % 16 > a.toNat % 16)
    c := decide (b.toNat > a.toNat) }

/-- `sbc8(a, b, cin)` (R93): H is the borrow out of bit 3 of the three-operand subtraction (90_conflicts.md C1). -/
def sbc8 (a b : Byte) (cin : Bool) : Alu8 :=
  let r := BitVec.ofInt 8 ((a.toNat : Int) - b.toNat - carryIn cin)
  { r := r
    z := r == 0#8
    n := true
    h := decide (b.toNat % 16 + carryIn cin > a.toNat % 16)
    c := decide (b.toNat + carryIn cin > a.toNat) }

/-- `and8(a, b)` (R98). -/
def and8 (a b : Byte) : Alu8 :=
  { r := a &&& b, z := (a &&& b) == 0#8, n := false, h := true, c := false }

/-- `xor8(a, b)` (R98). -/
def xor8 (a b : Byte) : Alu8 :=
  { r := a ^^^ b, z := (a ^^^ b) == 0#8, n := false, h := false, c := false }

/-- `or8(a, b)` (R98). -/
def or8 (a b : Byte) : Alu8 :=
  { r := a ||| b, z := (a ||| b) == 0#8, n := false, h := false, c := false }

/-- What `inc8` and `dec8` return: no carry ("the caller must preserve the prior carry bit", R94). -/
structure Step8 where
  r : Byte
  z : Bool
  n : Bool
  h : Bool
deriving DecidableEq, Repr

/-- `inc8(a)` (R94). -/
def inc8 (a : Byte) : Step8 :=
  let r := BitVec.ofNat 8 (a.toNat + 1)
  { r := r, z := r == 0#8, n := false, h := decide (a.toNat % 16 = 15) }

/-- `dec8(a)` (R95). -/
def dec8 (a : Byte) : Step8 :=
  let r := BitVec.ofInt 8 ((a.toNat : Int) - 1)
  { r := r, z := r == 0#8, n := true, h := decide (a.toNat % 16 = 0) }

/-! ### 16-bit arithmetic (R96, R97) -/

/-- What the 16-bit adders return. -/
structure Alu16 where
  r : Word
  h : Bool
  c : Bool
deriving DecidableEq, Repr

/-- `add16(a, b)` (R96): H from bit 11, C from bit 15. -/
def add16 (a b : Word) : Alu16 :=
  { r := BitVec.ofNat 16 (a.toNat + b.toNat)
    h := decide (a.toNat % 4096 + b.toNat % 4096 > 4095)
    c := decide (a.toNat + b.toNat > 65535) }

/-- `addsp(sp, e)` (R97): the sum takes `e` signed, H and C take it as the unsigned byte. Z and N are 0. -/
def addsp (sp : Word) (e : Byte) : Alu16 :=
  { r := sp + signExtend16 e
    h := decide (sp.toNat % 16 + e.toNat % 16 > 15)
    c := decide (sp.toNat % 256 + e.toNat > 255) }

/-! ### Rotates and shifts (R100) -/

/-- A rotate's or shift's result and its carry out. -/
structure Shift8 where
  r : Byte
  co : Bool
deriving DecidableEq, Repr

/-- Bits 6:0 of a byte. -/
def low7 (v : Byte) : BitVec 7 := v.extractLsb' 0 7

/-- Bits 7:1 of a byte. -/
def high7 (v : Byte) : BitVec 7 := v.extractLsb' 1 7

/-- `rlc(v)`: bit 7 goes to bit 0 and to carry. -/
def rlc (v : Byte) : Shift8 := { r := low7 v ++ BitVec.ofBool (v.getLsbD 7), co := v.getLsbD 7 }

/-- `rrc(v)`: bit 0 goes to bit 7 and to carry. -/
def rrc (v : Byte) : Shift8 := { r := BitVec.ofBool (v.getLsbD 0) ++ high7 v, co := v.getLsbD 0 }

/-- `rl(v, cin)`: left through carry. -/
def rl (v : Byte) (cin : Bool) : Shift8 := { r := low7 v ++ BitVec.ofBool cin, co := v.getLsbD 7 }

/-- `rr(v, cin)`: right through carry. -/
def rr (v : Byte) (cin : Bool) : Shift8 := { r := BitVec.ofBool cin ++ high7 v, co := v.getLsbD 0 }

/-- `sla(v)`: bit 0 becomes 0. -/
def sla (v : Byte) : Shift8 := { r := low7 v ++ 0#1, co := v.getLsbD 7 }

/-- `sra(v)`: bit 7 keeps its value. -/
def sra (v : Byte) : Shift8 := { r := BitVec.ofBool (v.getLsbD 7) ++ high7 v, co := v.getLsbD 0 }

/-- `swap(v)`: the nibbles exchanged, no carry. -/
def swap (v : Byte) : Shift8 := { r := v.extractLsb' 0 4 ++ v.extractLsb' 4 4, co := false }

/-- `srl(v)`: bit 7 becomes 0. -/
def srl (v : Byte) : Shift8 := { r := 0#1 ++ high7 v, co := v.getLsbD 0 }

/-! ### Decimal adjust (R101) -/

/-- The correction `adj` of `daa`: after an addition the tests look at the original accumulator too. -/
def daaAdjust (a : Byte) (n h c : Bool) : Byte :=
  let low := if n then h else h || decide (a.toNat % 16 > 9)
  let high := if n then c else c || decide (a.toNat > 0x99)
  (if low then 0x06#8 else 0x00#8) ||| (if high then 0x60#8 else 0x00#8)

/-- `daa(a, n, h, c)` (R101): N is unchanged, H cleared, C never cleared. -/
def daa (a : Byte) (n h c : Bool) : Alu8 :=
  let adj := daaAdjust a n h c
  let r := if n then a - adj else a + adj
  { r := r
    z := r == 0#8
    n := n
    h := false
    c := if n then c else c || decide (a.toNat > 0x99) }

/-! ### Single bits (R102) -/

/-- The mask `1 << b` at 8 bits. -/
def bitMask (b : BitVec 3) : Byte := 1#8 <<< b.toNat

/-- The tested bit `v[b]`. -/
def testBit (v : Byte) (b : BitVec 3) : Bool := v.getLsbD b.toNat

/-- `res(v, b)`. -/
def resetBit (v : Byte) (b : BitVec 3) : Byte := v &&& ~~~(bitMask b)

/-- `set(v, b)`. -/
def setBit (v : Byte) (b : BitVec 3) : Byte := v ||| bitMask b

/-! ### Committing a helper's answer ("the caller alone commits the write") -/

/-- `A <- r; flags <- (z, n, h, c)`: the end of every accumulator operation but CP. -/
def commitAlu (x : Alu8) (s : State) : Result :=
  .next ((s.setA x.r).setFlags x.z x.n x.h x.c)

/-- `flags <- (z, n, h, c)` with the result discarded: the end of CP (R99). -/
def commitCompare (x : Alu8) (s : State) : Result :=
  .next (s.setFlags x.z x.n x.h x.c)

/-- The operand takes the result, F becomes `z : n : h : F[4] : 0b0000`: the end of INC and DEC on 8 bits. -/
def commitStep8 (o : Operand8) (x : Step8) (s : State) : Result :=
  .next ((writeOperand8 s o x.r).setFlags x.z x.n x.h s.flagC)

/-- The operand takes the result, Z says whether it is 0, N and H are 0, C is the carry out: the end of a Group CB rotate
or shift. -/
def commitShift (o : Operand8) (x : Shift8) (s : State) : Result :=
  .next ((writeOperand8 s o x.r).setFlags (x.r == 0#8) false false x.co)

/-- A takes the result, Z, N and H are 0, C is the carry out: the end of RLCA, RRCA, RLA, RRA. -/
def commitShiftA (x : Shift8) (s : State) : Result :=
  .next ((s.setA x.r).setFlags false false false x.co)

end Sys2Proof.Machine
end

