-- ==== Sys2Proof/Machine/Group0.lean ====
section
/-! DEFINITION. The meanings of Group 0 (41_group0.md). A meaning runs on the state whose PC is already past the whole
instruction (10_state.md rule R18). -/

namespace Sys2Proof.Machine

/-- NOP (R110). -/
def execNop (s : State) : Result := .next s

/-- LD r16,n16 (R111). -/
def execLdR16N16 (rr : R16) (n16 : Word) (s : State) : Result := .next (s.putR16 rr n16)

/-- LD [BC],A (R112). -/
def execLdBcA (s : State) : Result := .next (write8 s s.bc s.a)

/-- LD [DE],A (R113). -/
def execLdDeA (s : State) : Result := .next (write8 s s.de s.a)

/-- LD [HL+],A (R114). -/
def execLdHliA (s : State) : Result := .next ((write8 s s.hl s.a).setHl (s.hl + 1#16))

/-- LD [HL-],A (R115). -/
def execLdHldA (s : State) : Result := .next ((write8 s s.hl s.a).setHl (s.hl - 1#16))

/-- LD A,[BC] (R116). -/
def execLdABc (s : State) : Result := .next (s.setA (read8 s s.bc))

/-- LD A,[DE] (R117). -/
def execLdADe (s : State) : Result := .next (s.setA (read8 s s.de))

/-- LD A,[HL+] (R118). -/
def execLdAHli (s : State) : Result := .next ((s.setA (read8 s s.hl)).setHl (s.hl + 1#16))

/-- LD A,[HL-] (R119). -/
def execLdAHld (s : State) : Result := .next ((s.setA (read8 s s.hl)).setHl (s.hl - 1#16))

/-- LD [a16],SP (R120). -/
def execLdA16Sp (a16 : Word) (s : State) : Result := andThen (write16 s a16 s.sp) .next

/-- INC r16 (R121): wraps, no flags; INC SP too (decision D4). -/
def execIncR16 (rr : R16) (s : State) : Result := .next (s.putR16 rr (s.getR16 rr + 1#16))

/-- DEC r16 (R122): wraps, no flags; DEC SP too (decision D4). -/
def execDecR16 (rr : R16) (s : State) : Result := .next (s.putR16 rr (s.getR16 rr - 1#16))

/-- ADD HL,r16 (R123): Z unchanged, N cleared (90_conflicts.md C2). -/
def execAddHlR16 (rr : R16) (s : State) : Result :=
  let x := add16 s.hl (s.getR16 rr)
  .next ((s.setHl x.r).setFlags s.flagZ false x.h x.c)

/-- INC r8 (R124). -/
def execIncR8 (r : R8) (s : State) : Result := commitStep8 (.reg r) (inc8 (s.getR8 r)) s

/-- INC [HL] (R125). -/
def execIncHl (s : State) : Result := commitStep8 .indHL (inc8 (read8 s s.hl)) s

/-- DEC r8 (R126). -/
def execDecR8 (r : R8) (s : State) : Result := commitStep8 (.reg r) (dec8 (s.getR8 r)) s

/-- DEC [HL] (R127). -/
def execDecHl (s : State) : Result := commitStep8 .indHL (dec8 (read8 s s.hl)) s

/-- LD r8,n8 (R128). -/
def execLdR8N8 (r : R8) (n8 : Byte) (s : State) : Result := .next (s.putR8 r n8)

/-- LD [HL],n8 (R129). -/
def execLdHlN8 (n8 : Byte) (s : State) : Result := .next (write8 s s.hl n8)

/-- RLCA (R130). -/
def execRlca (s : State) : Result := commitShiftA (rlc s.a) s

/-- RRCA (R131). -/
def execRrca (s : State) : Result := commitShiftA (rrc s.a) s

/-- RLA (R132). -/
def execRla (s : State) : Result := commitShiftA (rl s.a s.flagC) s

/-- RRA (R133). -/
def execRra (s : State) : Result := commitShiftA (rr s.a s.flagC) s

/-- DAA (R134). -/
def execDaa (s : State) : Result := commitAlu (daa s.a s.flagN s.flagH s.flagC) s

/-- CPL (R135): Z and C unchanged. -/
def execCpl (s : State) : Result := .next ((s.setA (~~~s.a)).setFlags s.flagZ true true s.flagC)

/-- SCF (R136): Z unchanged. -/
def execScf (s : State) : Result := .next (s.setFlags s.flagZ false false true)

/-- CCF (R137): Z unchanged. -/
def execCcf (s : State) : Result := .next (s.setFlags s.flagZ false false (!s.flagC))

/-- A relative jump: the displacement is added to the address after the instruction, modulo 65536 (R138, decision D5). -/
def jumpRelative (e8 : Byte) (s : State) : State := s.setPc (s.pc + signExtend16 e8)

/-- JR e8 (R138). -/
def execJr (e8 : Byte) (s : State) : Result := .next (jumpRelative e8 s)

/-- JR cc,e8 (R139). -/
def execJrCc (cc : Cond) (e8 : Byte) (s : State) : Result :=
  if s.cond cc then .next (jumpRelative e8 s) else .next s

/-- STOP (R140): "a no-op placeholder at this layer", one byte long (decision D10; log entry 2). -/
def execStop (s : State) : Result := .next s

end Sys2Proof.Machine
end

