-- ==== Sys2Proof/Machine/Group1.lean ====
section
/-! DEFINITION. The meanings of Group 1 (42_group1.md). -/

namespace Sys2Proof.Machine

/-- LD r8,r8' (R150). -/
def execLdR8R8 (dst src : R8) (s : State) : Result := .next (s.putR8 dst (s.getR8 src))

/-- LD r8,[HL] (R151): the address is formed before the write. -/
def execLdR8Hl (dst : R8) (s : State) : Result := .next (s.putR8 dst (read8 s s.hl))

/-- LD [HL],r8 (R152). -/
def execLdHlR8 (src : R8) (s : State) : Result := .next (write8 s s.hl (s.getR8 src))

/-- HALT under each value of `HALT_MODE` (R4, R153, 93_implementation_defined.md U6). -/
def haltUnder (mode : Config.HaltMode) (s : State) : Result :=
  match mode with
  | .placeholder => .next s
  | .stuck => .refused .haltStuck

/-- HALT (R153): under the default mode nothing but the PC has moved (decision D9; log entry 2). -/
def execHalt (s : State) : Result := haltUnder Config.haltMode s

end Sys2Proof.Machine
end

