-- ==== Sys2Proof/Machine/Group2.lean ====
section
/-! DEFINITION. The meanings of Group 2 (43_group2.md): the accumulator against a register or the byte at HL. -/

namespace Sys2Proof.Machine

/-- ADD A,r8 (R160). -/
def execAddAR8 (r : R8) (s : State) : Result := commitAlu (add8 s.a (s.getR8 r)) s

/-- ADD A,[HL] (R161). -/
def execAddAHl (s : State) : Result := commitAlu (add8 s.a (read8 s s.hl)) s

/-- ADC A,r8 (R162). -/
def execAdcAR8 (r : R8) (s : State) : Result := commitAlu (adc8 s.a (s.getR8 r) s.flagC) s

/-- ADC A,[HL] (R163). -/
def execAdcAHl (s : State) : Result := commitAlu (adc8 s.a (read8 s s.hl) s.flagC) s

/-- SUB r8 (R164). -/
def execSubR8 (r : R8) (s : State) : Result := commitAlu (sub8 s.a (s.getR8 r)) s

/-- SUB [HL] (R165). -/
def execSubHl (s : State) : Result := commitAlu (sub8 s.a (read8 s s.hl)) s

/-- SBC A,r8 (R166). -/
def execSbcAR8 (r : R8) (s : State) : Result := commitAlu (sbc8 s.a (s.getR8 r) s.flagC) s

/-- SBC A,[HL] (R167). -/
def execSbcAHl (s : State) : Result := commitAlu (sbc8 s.a (read8 s s.hl) s.flagC) s

/-- AND r8 (R168). -/
def execAndR8 (r : R8) (s : State) : Result := commitAlu (and8 s.a (s.getR8 r)) s

/-- AND [HL] (R169). -/
def execAndHl (s : State) : Result := commitAlu (and8 s.a (read8 s s.hl)) s

/-- XOR r8 (R170). -/
def execXorR8 (r : R8) (s : State) : Result := commitAlu (xor8 s.a (s.getR8 r)) s

/-- XOR [HL] (R171). -/
def execXorHl (s : State) : Result := commitAlu (xor8 s.a (read8 s s.hl)) s

/-- OR r8 (R172). -/
def execOrR8 (r : R8) (s : State) : Result := commitAlu (or8 s.a (s.getR8 r)) s

/-- OR [HL] (R173). -/
def execOrHl (s : State) : Result := commitAlu (or8 s.a (read8 s s.hl)) s

/-- CP r8 (R174). -/
def execCpR8 (r : R8) (s : State) : Result := commitCompare (sub8 s.a (s.getR8 r)) s

/-- CP [HL] (R175). -/
def execCpHl (s : State) : Result := commitCompare (sub8 s.a (read8 s s.hl)) s

end Sys2Proof.Machine
end

