-- ==== Sys2Proof/Machine/Group3Control.lean ====
section
/-! DEFINITION. The control-transfer and system instructions of Group 3 and the undefined opcodes
(45_group3_control.md). -/

namespace Sys2Proof.Machine

/-! ### Returns, jumps, calls -/

/-- `PC <- Pop16()`. -/
def returnFromStack (s : State) : Result := andThen (pop16 s) fun (v, t) => .next (t.setPc v)

/-- `Push16(PC); PC <- target`: PC is the address of the next instruction. -/
def callTo (target : Word) (s : State) : Result := andThen (push16 s s.pc) fun t => .next (t.setPc target)

/-- RET cc (R210). -/
def execRetCc (cc : Cond) (s : State) : Result := if s.cond cc then returnFromStack s else .next s

/-- RET (R211). -/
def execRet (s : State) : Result := returnFromStack s

/-- RETI (R212): RET, and `ime <- 1` at once; `ime_pend` not written (decision D8). -/
def execReti (s : State) : Result := andThen (pop16 s) fun (v, t) => .next ((t.setPc v).setIme true)

/-- JP cc,a16 (R213). -/
def execJpCc (cc : Cond) (a16 : Word) (s : State) : Result := if s.cond cc then .next (s.setPc a16) else .next s

/-- JP a16 (R214). -/
def execJp (a16 : Word) (s : State) : Result := .next (s.setPc a16)

/-- JP HL (R215): the target is HL itself. -/
def execJpHl (s : State) : Result := .next (s.setPc s.hl)

/-- CALL cc,a16 (R216). -/
def execCallCc (cc : Cond) (a16 : Word) (s : State) : Result := if s.cond cc then callTo a16 s else .next s

/-- CALL a16 (R217). -/
def execCall (a16 : Word) (s : State) : Result := callTo a16 s

/-- RST t (R218). -/
def execRst (t : BitVec 3) (s : State) : Result := callTo (rstTarget t) s

/-! ### Interrupt enable -/

/-- DI (R219): `ime` cleared at once, a pending enable cancelled. -/
def execDi (s : State) : Result := .next ((s.setIme false).setImePend .none)

/-- EI (R220): arms the delay unless an enable is in flight (decision D7). -/
def execEi (s : State) : Result := if s.imePend = .none then .next (s.setImePend .armed1) else .next s

/-! ### Undefined opcodes (R222) -/

/-- `raise UndefinedOpcode(op)`. -/
def raiseUndefined (op : Byte) : Result := .fault (.undefinedOpcode op)

/-- The undefined opcode 0xD3 (R222). -/
def execUndefinedD3 (_s : State) : Result := raiseUndefined 0xD3#8

/-- The undefined opcode 0xDB (R222). -/
def execUndefinedDB (_s : State) : Result := raiseUndefined 0xDB#8

/-- The undefined opcode 0xDD (R222). -/
def execUndefinedDD (_s : State) : Result := raiseUndefined 0xDD#8

/-- The undefined opcode 0xE3 (R222). -/
def execUndefinedE3 (_s : State) : Result := raiseUndefined 0xE3#8

/-- The undefined opcode 0xE4 (R222). -/
def execUndefinedE4 (_s : State) : Result := raiseUndefined 0xE4#8

/-- The undefined opcode 0xEB (R222). -/
def execUndefinedEB (_s : State) : Result := raiseUndefined 0xEB#8

/-- The undefined opcode 0xEC (R222). -/
def execUndefinedEC (_s : State) : Result := raiseUndefined 0xEC#8

/-- The undefined opcode 0xED (R222). -/
def execUndefinedED (_s : State) : Result := raiseUndefined 0xED#8

/-- The undefined opcode 0xF4 (R222). -/
def execUndefinedF4 (_s : State) : Result := raiseUndefined 0xF4#8

/-- The undefined opcode 0xFC (R222). -/
def execUndefinedFC (_s : State) : Result := raiseUndefined 0xFC#8

/-- The undefined opcode 0xFD (R222). -/
def execUndefinedFD (_s : State) : Result := raiseUndefined 0xFD#8

end Sys2Proof.Machine
end

