-- ==== Sys2Proof/Machine/Group3Data.lean ====
section
/-! DEFINITION. The data instructions of Group 3 (44_group3_data.md). -/

namespace Sys2Proof.Machine

/-! ### Accumulator arithmetic with an immediate -/

/-- ADD A,n8 (R180). -/
def execAddAN8 (n8 : Byte) (s : State) : Result := commitAlu (add8 s.a n8) s

/-- ADC A,n8 (R181). -/
def execAdcAN8 (n8 : Byte) (s : State) : Result := commitAlu (adc8 s.a n8 s.flagC) s

/-- SUB n8 (R182). -/
def execSubN8 (n8 : Byte) (s : State) : Result := commitAlu (sub8 s.a n8) s

/-- SBC A,n8 (R183). -/
def execSbcAN8 (n8 : Byte) (s : State) : Result := commitAlu (sbc8 s.a n8 s.flagC) s

/-- AND n8 (R184). -/
def execAndN8 (n8 : Byte) (s : State) : Result := commitAlu (and8 s.a n8) s

/-- XOR n8 (R185). -/
def execXorN8 (n8 : Byte) (s : State) : Result := commitAlu (xor8 s.a n8) s

/-- OR n8 (R186). -/
def execOrN8 (n8 : Byte) (s : State) : Result := commitAlu (or8 s.a n8) s

/-- CP n8 (R187). -/
def execCpN8 (n8 : Byte) (s : State) : Result := commitCompare (sub8 s.a n8) s

/-! ### POP and PUSH -/

/-- POP r16 (R188). -/
def execPopR16 (rr : R16Stk) (s : State) : Result := andThen (pop16 s) fun (v, t) => .next (t.putR16Stk rr v)

/-- POP AF (R189): the low nibble of F is masked to zero. -/
def execPopAf (s : State) : Result := andThen (pop16 s) fun (v, t) => .next (t.setAf v)

/-- PUSH r16 (R190). -/
def execPushR16 (rr : R16Stk) (s : State) : Result := andThen (push16 s (s.getR16Stk rr)) .next

/-- PUSH AF (R191). -/
def execPushAf (s : State) : Result := andThen (push16 s s.af) .next

/-! ### High-page and absolute accumulator loads and stores -/

/-- LDH [C],A (R192). -/
def execLdhCA (s : State) : Result := .next (write8 s (highPage s.c) s.a)

/-- LDH [a8],A (R193). -/
def execLdhA8A (a8 : Byte) (s : State) : Result := .next (write8 s (highPage a8) s.a)

/-- LD [a16],A (R194). -/
def execLdA16A (a16 : Word) (s : State) : Result := .next (write8 s a16 s.a)

/-- LDH A,[C] (R195). -/
def execLdhAC (s : State) : Result := .next (s.setA (read8 s (highPage s.c)))

/-- LDH A,[a8] (R196). -/
def execLdhAA8 (a8 : Byte) (s : State) : Result := .next (s.setA (read8 s (highPage a8)))

/-- LD A,[a16] (R197). -/
def execLdAA16 (a16 : Word) (s : State) : Result := .next (s.setA (read8 s a16))

/-! ### Stack-pointer arithmetic and transfer -/

/-- ADD SP,e8 (R198): wraps, never StackOverflow (decision D4). -/
def execAddSpE8 (e8 : Byte) (s : State) : Result :=
  let x := addsp s.sp e8
  .next ((s.setSp x.r).setFlags false false x.h x.c)

/-- LD HL,SP+e8 (R199). -/
def execLdHlSpE8 (e8 : Byte) (s : State) : Result :=
  let x := addsp s.sp e8
  .next ((s.setHl x.r).setFlags false false x.h x.c)

/-- LD SP,HL (R200). -/
def execLdSpHl (s : State) : Result := .next (s.setSp s.hl)

end Sys2Proof.Machine
end

