-- ==== Sys2Proof/Machine/GroupCB.lean ====
section
/-! DEFINITION. The meanings of Group CB (46_group_cb.md), and the prefix byte 0xCB (45_group3_control.md rule R221), which
fetches a second byte and runs the CB instruction it selects. -/

namespace Sys2Proof.Machine

/-! ### Rotates and shifts -/

/-- RLC r8 (R240). -/
def execRlcR8 (r : R8) (s : State) : Result := commitShift (.reg r) (rlc (s.getR8 r)) s

/-- RLC [HL] (R241). -/
def execRlcHl (s : State) : Result := commitShift .indHL (rlc (read8 s s.hl)) s

/-- RRC r8 (R242). -/
def execRrcR8 (r : R8) (s : State) : Result := commitShift (.reg r) (rrc (s.getR8 r)) s

/-- RRC [HL] (R243). -/
def execRrcHl (s : State) : Result := commitShift .indHL (rrc (read8 s s.hl)) s

/-- RL r8 (R244). -/
def execRlR8 (r : R8) (s : State) : Result := commitShift (.reg r) (rl (s.getR8 r) s.flagC) s

/-- RL [HL] (R245). -/
def execRlHl (s : State) : Result := commitShift .indHL (rl (read8 s s.hl) s.flagC) s

/-- RR r8 (R246). -/
def execRrR8 (r : R8) (s : State) : Result := commitShift (.reg r) (rr (s.getR8 r) s.flagC) s

/-- RR [HL] (R247). -/
def execRrHl (s : State) : Result := commitShift .indHL (rr (read8 s s.hl) s.flagC) s

/-- SLA r8 (R248). -/
def execSlaR8 (r : R8) (s : State) : Result := commitShift (.reg r) (sla (s.getR8 r)) s

/-- SLA [HL] (R249). -/
def execSlaHl (s : State) : Result := commitShift .indHL (sla (read8 s s.hl)) s

/-- SRA r8 (R250). -/
def execSraR8 (r : R8) (s : State) : Result := commitShift (.reg r) (sra (s.getR8 r)) s

/-- SRA [HL] (R251). -/
def execSraHl (s : State) : Result := commitShift .indHL (sra (read8 s s.hl)) s

/-- SWAP r8 (R252). -/
def execSwapR8 (r : R8) (s : State) : Result := commitShift (.reg r) (swap (s.getR8 r)) s

/-- SWAP [HL] (R253). -/
def execSwapHl (s : State) : Result := commitShift .indHL (swap (read8 s s.hl)) s

/-- SRL r8 (R254). -/
def execSrlR8 (r : R8) (s : State) : Result := commitShift (.reg r) (srl (s.getR8 r)) s

/-- SRL [HL] (R255). -/
def execSrlHl (s : State) : Result := commitShift .indHL (srl (read8 s s.hl)) s

/-! ### Single bits -/

/-- `Z <- (the tested bit is 0); N <- 0; H <- 1`, C unchanged (R102, R256, R257). -/
def commitBit (b : BitVec 3) (v : Byte) (s : State) : Result :=
  .next (s.setFlags (!testBit v b) false true s.flagC)

/-- BIT b,r8 (R256). -/
def execBitR8 (b : BitVec 3) (r : R8) (s : State) : Result := commitBit b (s.getR8 r) s

/-- BIT b,[HL] (R257). -/
def execBitHl (b : BitVec 3) (s : State) : Result := commitBit b (read8 s s.hl) s

/-- RES b,r8 (R258). -/
def execResR8 (b : BitVec 3) (r : R8) (s : State) : Result := .next (s.putR8 r (resetBit (s.getR8 r) b))

/-- RES b,[HL] (R259). -/
def execResHl (b : BitVec 3) (s : State) : Result := .next (write8 s s.hl (resetBit (read8 s s.hl) b))

/-- SET b,r8 (R260). -/
def execSetR8 (b : BitVec 3) (r : R8) (s : State) : Result := .next (s.putR8 r (setBit (s.getR8 r) b))

/-- SET b,[HL] (R261). -/
def execSetHl (b : BitVec 3) (s : State) : Result := .next (write8 s s.hl (setBit (read8 s s.hl) b))

/-! ### The prefix -/

/-- Group CB on a register (R76). -/
def execCbReg (o : CbOp) (r : R8) (s : State) : Result :=
  match o with
  | .rot .rlc => execRlcR8 r s
  | .rot .rrc => execRrcR8 r s
  | .rot .rl => execRlR8 r s
  | .rot .rr => execRrR8 r s
  | .rot .sla => execSlaR8 r s
  | .rot .sra => execSraR8 r s
  | .rot .swap => execSwapR8 r s
  | .rot .srl => execSrlR8 r s
  | .bit b => execBitR8 b r s
  | .res b => execResR8 b r s
  | .set b => execSetR8 b r s

/-- Group CB on the byte at HL (R76). -/
def execCbHl (o : CbOp) (s : State) : Result :=
  match o with
  | .rot .rlc => execRlcHl s
  | .rot .rrc => execRrcHl s
  | .rot .rl => execRlHl s
  | .rot .rr => execRrHl s
  | .rot .sla => execSlaHl s
  | .rot .sra => execSraHl s
  | .rot .swap => execSwapHl s
  | .rot .srl => execSrlHl s
  | .bit b => execBitHl b s
  | .res b => execResHl b s
  | .set b => execSetHl b s

/-- `ExecCB(cb)` (R61). -/
def execCb (cb : Byte) (s : State) : Result :=
  match operand8 (fieldZ cb) with
  | .reg r => execCbReg (cbOpOf cb) r s
  | .indHL => execCbHl (cbOpOf cb) s

/-- The prefix (R61, R221): the second byte is fetched, the CB instruction it selects is run; the two are one step. -/
def execPrefixCB (s : State) : Result := andThen (fetch8 s) fun (cb, t) => execCb cb t

end Sys2Proof.Machine
end

