-- ==== Sys2Proof/Machine/Dispatch.lean ====
section
/-! DEFINITION. From an instruction to its meaning, one arm for each constructor. -/

namespace Sys2Proof.Machine

def exec (i : Instr) (s : State) : Host.Outcome State Fault Refusal :=
  match i with
  | .nop => Sys2Proof.Machine.execNop s
  | .ldR16N16 rr n16 => Sys2Proof.Machine.execLdR16N16 rr n16 s
  | .ldBcA => Sys2Proof.Machine.execLdBcA s
  | .ldDeA => Sys2Proof.Machine.execLdDeA s
  | .ldHliA => Sys2Proof.Machine.execLdHliA s
  | .ldHldA => Sys2Proof.Machine.execLdHldA s
  | .ldABc => Sys2Proof.Machine.execLdABc s
  | .ldADe => Sys2Proof.Machine.execLdADe s
  | .ldAHli => Sys2Proof.Machine.execLdAHli s
  | .ldAHld => Sys2Proof.Machine.execLdAHld s
  | .ldA16Sp a16 => Sys2Proof.Machine.execLdA16Sp a16 s
  | .incR16 rr => Sys2Proof.Machine.execIncR16 rr s
  | .decR16 rr => Sys2Proof.Machine.execDecR16 rr s
  | .addHlR16 rr => Sys2Proof.Machine.execAddHlR16 rr s
  | .incR8 r => Sys2Proof.Machine.execIncR8 r s
  | .incHl => Sys2Proof.Machine.execIncHl s
  | .decR8 r => Sys2Proof.Machine.execDecR8 r s
  | .decHl => Sys2Proof.Machine.execDecHl s
  | .ldR8N8 r n8 => Sys2Proof.Machine.execLdR8N8 r n8 s
  | .ldHlN8 n8 => Sys2Proof.Machine.execLdHlN8 n8 s
  | .rlca => Sys2Proof.Machine.execRlca s
  | .rrca => Sys2Proof.Machine.execRrca s
  | .rla => Sys2Proof.Machine.execRla s
  | .rra => Sys2Proof.Machine.execRra s
  | .daa => Sys2Proof.Machine.execDaa s
  | .cpl => Sys2Proof.Machine.execCpl s
  | .scf => Sys2Proof.Machine.execScf s
  | .ccf => Sys2Proof.Machine.execCcf s
  | .jr e8 => Sys2Proof.Machine.execJr e8 s
  | .jrCc cc e8 => Sys2Proof.Machine.execJrCc cc e8 s
  | .stop => Sys2Proof.Machine.execStop s
  | .ldR8R8 dst src => Sys2Proof.Machine.execLdR8R8 dst src s
  | .ldR8Hl dst => Sys2Proof.Machine.execLdR8Hl dst s
  | .ldHlR8 src => Sys2Proof.Machine.execLdHlR8 src s
  | .halt => Sys2Proof.Machine.execHalt s
  | .addAR8 r => Sys2Proof.Machine.execAddAR8 r s
  | .addAHl => Sys2Proof.Machine.execAddAHl s
  | .adcAR8 r => Sys2Proof.Machine.execAdcAR8 r s
  | .adcAHl => Sys2Proof.Machine.execAdcAHl s
  | .subR8 r => Sys2Proof.Machine.execSubR8 r s
  | .subHl => Sys2Proof.Machine.execSubHl s
  | .sbcAR8 r => Sys2Proof.Machine.execSbcAR8 r s
  | .sbcAHl => Sys2Proof.Machine.execSbcAHl s
  | .andR8 r => Sys2Proof.Machine.execAndR8 r s
  | .andHl => Sys2Proof.Machine.execAndHl s
  | .xorR8 r => Sys2Proof.Machine.execXorR8 r s
  | .xorHl => Sys2Proof.Machine.execXorHl s
  | .orR8 r => Sys2Proof.Machine.execOrR8 r s
  | .orHl => Sys2Proof.Machine.execOrHl s
  | .cpR8 r => Sys2Proof.Machine.execCpR8 r s
  | .cpHl => Sys2Proof.Machine.execCpHl s
  | .addAN8 n8 => Sys2Proof.Machine.execAddAN8 n8 s
  | .adcAN8 n8 => Sys2Proof.Machine.execAdcAN8 n8 s
  | .subN8 n8 => Sys2Proof.Machine.execSubN8 n8 s
  | .sbcAN8 n8 => Sys2Proof.Machine.execSbcAN8 n8 s
  | .andN8 n8 => Sys2Proof.Machine.execAndN8 n8 s
  | .xorN8 n8 => Sys2Proof.Machine.execXorN8 n8 s
  | .orN8 n8 => Sys2Proof.Machine.execOrN8 n8 s
  | .cpN8 n8 => Sys2Proof.Machine.execCpN8 n8 s
  | .popR16 rr => Sys2Proof.Machine.execPopR16 rr s
  | .popAf => Sys2Proof.Machine.execPopAf s
  | .pushR16 rr => Sys2Proof.Machine.execPushR16 rr s
  | .pushAf => Sys2Proof.Machine.execPushAf s
  | .ldhCA => Sys2Proof.Machine.execLdhCA s
  | .ldhA8A a8 => Sys2Proof.Machine.execLdhA8A a8 s
  | .ldA16A a16 => Sys2Proof.Machine.execLdA16A a16 s
  | .ldhAC => Sys2Proof.Machine.execLdhAC s
  | .ldhAA8 a8 => Sys2Proof.Machine.execLdhAA8 a8 s
  | .ldAA16 a16 => Sys2Proof.Machine.execLdAA16 a16 s
  | .addSpE8 e8 => Sys2Proof.Machine.execAddSpE8 e8 s
  | .ldHlSpE8 e8 => Sys2Proof.Machine.execLdHlSpE8 e8 s
  | .ldSpHl => Sys2Proof.Machine.execLdSpHl s
  | .retCc cc => Sys2Proof.Machine.execRetCc cc s
  | .ret => Sys2Proof.Machine.execRet s
  | .reti => Sys2Proof.Machine.execReti s
  | .jpCc cc a16 => Sys2Proof.Machine.execJpCc cc a16 s
  | .jp a16 => Sys2Proof.Machine.execJp a16 s
  | .jpHl => Sys2Proof.Machine.execJpHl s
  | .callCc cc a16 => Sys2Proof.Machine.execCallCc cc a16 s
  | .call a16 => Sys2Proof.Machine.execCall a16 s
  | .rst t => Sys2Proof.Machine.execRst t s
  | .di => Sys2Proof.Machine.execDi s
  | .ei => Sys2Proof.Machine.execEi s
  | .prefixCB => Sys2Proof.Machine.execPrefixCB s
  | .undefinedD3 => Sys2Proof.Machine.execUndefinedD3 s
  | .undefinedDB => Sys2Proof.Machine.execUndefinedDB s
  | .undefinedDD => Sys2Proof.Machine.execUndefinedDD s
  | .undefinedE3 => Sys2Proof.Machine.execUndefinedE3 s
  | .undefinedE4 => Sys2Proof.Machine.execUndefinedE4 s
  | .undefinedEB => Sys2Proof.Machine.execUndefinedEB s
  | .undefinedEC => Sys2Proof.Machine.execUndefinedEC s
  | .undefinedED => Sys2Proof.Machine.execUndefinedED s
  | .undefinedF4 => Sys2Proof.Machine.execUndefinedF4 s
  | .undefinedFC => Sys2Proof.Machine.execUndefinedFC s
  | .undefinedFD => Sys2Proof.Machine.execUndefinedFD s
  | .rlcR8 r => Sys2Proof.Machine.execRlcR8 r s
  | .rlcHl => Sys2Proof.Machine.execRlcHl s
  | .rrcR8 r => Sys2Proof.Machine.execRrcR8 r s
  | .rrcHl => Sys2Proof.Machine.execRrcHl s
  | .rlR8 r => Sys2Proof.Machine.execRlR8 r s
  | .rlHl => Sys2Proof.Machine.execRlHl s
  | .rrR8 r => Sys2Proof.Machine.execRrR8 r s
  | .rrHl => Sys2Proof.Machine.execRrHl s
  | .slaR8 r => Sys2Proof.Machine.execSlaR8 r s
  | .slaHl => Sys2Proof.Machine.execSlaHl s
  | .sraR8 r => Sys2Proof.Machine.execSraR8 r s
  | .sraHl => Sys2Proof.Machine.execSraHl s
  | .swapR8 r => Sys2Proof.Machine.execSwapR8 r s
  | .swapHl => Sys2Proof.Machine.execSwapHl s
  | .srlR8 r => Sys2Proof.Machine.execSrlR8 r s
  | .srlHl => Sys2Proof.Machine.execSrlHl s
  | .bitR8 b r => Sys2Proof.Machine.execBitR8 b r s
  | .bitHl b => Sys2Proof.Machine.execBitHl b s
  | .resR8 b r => Sys2Proof.Machine.execResR8 b r s
  | .resHl b => Sys2Proof.Machine.execResHl b s
  | .setR8 b r => Sys2Proof.Machine.execSetR8 b r s
  | .setHl b => Sys2Proof.Machine.execSetHl b s

end Sys2Proof.Machine
end

