-- ==== Sys2Proof/Machine/Fetch.lean ====
section
/-! DEFINITION. Fetching an instruction (30_encoding.md rule R61: `op <- Fetch8()`, then its operand bytes, all of them
before any data access, 20_memory.md rule R50), and placing bytes where the next instruction is fetched from. -/

namespace Sys2Proof.Machine

/-- The instruction at PC, and the state with PC past it. For the prefix byte that is the prefix alone: its meaning
fetches the second byte (R61, R221). -/
def fetchInstr (s : State) : Except Fault (Instr × State) :=
  match fetch8 s with
  | .error fault => raise fault
  | .ok (op, s) =>
    match operandBytes op with
    | 0 => .ok (decodeFirst op 0#8 0#16, s)
    | 1 =>
      match fetch8 s with
      | .error fault => raise fault
      | .ok (n8, s) => .ok (decodeFirst op n8 0#16, s)
    | _ =>
      match fetch16 s with
      | .error fault => raise fault
      | .ok (n16, s) => .ok (decodeFirst op 0#8 n16, s)

/-- Stores bytes at consecutive addresses, as far as memory reaches. -/
def storeBytes (m : Memory) (addr : Nat) : List Byte → Memory
  | [] => m
  | v :: rest => storeBytes (if addr < Config.memSize then Memory.set m addr v else m) (addr + 1) rest

/-- The state with the bytes stored at PC. -/
def placeBytes (s : State) (bytes : List Byte) : State := { s with mem := storeBytes s.mem s.pc.toNat bytes }

end Sys2Proof.Machine
end

