-- ==== Sys2Proof/Machine/Ime.lean ====
section
/-! DEFINITION. The post-instruction hook of the interrupt master enable (60_exceptions.md rules R281, R282). -/

namespace Sys2Proof.Machine

/-- `ImeHook()` (R282). -/
def imeHook (s : State) : State :=
  match s.imePend with
  | .armed1 => s.setImePend .armed0
  | .armed0 => (s.setIme true).setImePend .none
  | .none => s

/-- The end of a step: the hook runs once after an instruction that did not fault (R61, R271, decision D12). -/
def finishStep (r : Result) : Result :=
  match r with
  | .next t => .next (imeHook t)
  | .fault fault => .fault fault
  | .refused refusal => .refused refusal

end Sys2Proof.Machine
end

