-- ==== Sys2Proof/Machine/Step.lean ====
section
/-! DEFINITION. One step (30_encoding.md rule R61), and placing an instruction word where the next step fetches it. -/

namespace Sys2Proof.Machine

/-- `step()` (R7, R61): fetch, execute, then the hook. A fault ends the step with no state (R271, R272). -/
def step (s : State) : Host.Outcome State Fault Refusal :=
  match fetchInstr s with
  | .error fault => .fault fault
  | .ok (i, t) => finishStep (exec i t)

/-- The bytes of `w`, numbered as the opcode table numbers them, stored at PC (log entry 6). -/
def State.withFetchWord (s : State) (nbits w : Nat) : State := placeBytes s (tableBytes nbits w)

end Sys2Proof.Machine
end

