-- ==== Sys2Proof/Machine/HostOps.lean ====
section
/-! DEFINITION. The host operations beside `step` (00_scope.md rules R5, R6; 20_memory.md rule R49): `construct` is
`State.reset`; `load_image` puts a program into the machine. -/

namespace Sys2Proof.Machine

/-- The greatest length of an image: 65536 - 0x0100 = 65280 (R6, R49, R277). -/
def imageCapacity : Nat := Config.memSize - Config.origin.toNat

/-- `load_image(bytes)` (R6, R49): nothing but the window and PC changes. -/
def loadImage (bytes : List Byte) (s : State) : Result :=
  if bytes.length > imageCapacity then .fault .capacityExceeded
  else .next { s with mem := storeBytes s.mem Config.origin.toNat bytes, pc := Config.origin }

end Sys2Proof.Machine
end

