-- ==== Sys2Proof/Machine/Timing.lean ====
section
/-! DEFINITION. Timing as 70_reset_and_hazards.md rules R310 to R312 give it: the M-cycle count that `step` reports for an
instruction. It is "reported, not acted on": no state depends on it, so it stands beside the state (decision D23). The
numbers are those of each instruction's rule (`return m`; log entry 3). -/

namespace Sys2Proof.Machine

/-- The cost of a conditional instruction (R311). -/
def takenOrNot (s : State) (cc : Cond) (taken notTaken : Nat) : Option Nat :=
  some (if s.cond cc then taken else notTaken)

/-- The cost of a CB instruction, both bytes counted (R310): 2 on a register, 4 on `[HL]`, 3 for `BIT b,[HL]`. -/
def cbCycles (cb : Byte) : Nat :=
  match operand8 (fieldZ cb), cbOpOf cb with
  | .reg _, _ => 2
  | .indHL, .bit _ => 3
  | .indHL, .rot _ => 4
  | .indHL, .res _ => 4
  | .indHL, .set _ => 4

/-- The M-cycles of an instruction run in state `s` (PC past the instruction). The prefix has "no cost of its own" (R310):
what is reported is the cost of the CB instruction it runs. An undefined opcode returns no count. -/
def instrCycles (i : Instr) (s : State) : Option Nat :=
  match i with
  | .nop => some 1
  | .ldR16N16 _ _ => some 3
  | .ldBcA => some 2
  | .ldDeA => some 2
  | .ldHliA => some 2
  | .ldHldA => some 2
  | .ldABc => some 2
  | .ldADe => some 2
  | .ldAHli => some 2
  | .ldAHld => some 2
  | .ldA16Sp _ => some 5
  | .incR16 _ => some 2
  | .decR16 _ => some 2
  | .addHlR16 _ => some 2
  | .incR8 _ => some 1
  | .incHl => some 3
  | .decR8 _ => some 1
  | .decHl => some 3
  | .ldR8N8 _ _ => some 2
  | .ldHlN8 _ => some 3
  | .rlca => some 1
  | .rrca => some 1
  | .rla => some 1
  | .rra => some 1
  | .daa => some 1
  | .cpl => some 1
  | .scf => some 1
  | .ccf => some 1
  | .jr _ => some 3
  | .jrCc cc _ => takenOrNot s cc 3 2
  | .stop => some 1
  | .ldR8R8 _ _ => some 1
  | .ldR8Hl _ => some 2
  | .ldHlR8 _ => some 2
  | .halt => some 1
  | .addAR8 _ => some 1
  | .addAHl => some 2
  | .adcAR8 _ => some 1
  | .adcAHl => some 2
  | .subR8 _ => some 1
  | .subHl => some 2
  | .sbcAR8 _ => some 1
  | .sbcAHl => some 2
  | .andR8 _ => some 1
  | .andHl => some 2
  | .xorR8 _ => some 1
  | .xorHl => some 2
  | .orR8 _ => some 1
  | .orHl => some 2
  | .cpR8 _ => some 1
  | .cpHl => some 2
  | .addAN8 _ => some 2
  | .adcAN8 _ => some 2
  | .subN8 _ => some 2
  | .sbcAN8 _ => some 2
  | .andN8 _ => some 2
  | .xorN8 _ => some 2
  | .orN8 _ => some 2
  | .cpN8 _ => some 2
  | .popR16 _ => some 3
  | .popAf => some 3
  | .pushR16 _ => some 4
  | .pushAf => some 4
  | .ldhCA => some 2
  | .ldhA8A _ => some 3
  | .ldA16A _ => some 4
  | .ldhAC => some 2
  | .ldhAA8 _ => some 3
  | .ldAA16 _ => some 4
  | .addSpE8 _ => some 4
  | .ldHlSpE8 _ => some 3
  | .ldSpHl => some 2
  | .retCc cc => takenOrNot s cc 5 2
  | .ret => some 4
  | .reti => some 4
  | .jpCc cc _ => takenOrNot s cc 4 3
  | .jp _ => some 4
  | .jpHl => some 1
  | .callCc cc _ => takenOrNot s cc 6 3
  | .call _ => some 6
  | .rst _ => some 4
  | .di => some 1
  | .ei => some 1
  | .prefixCB => some (cbCycles (read8 s s.pc))
  | .undefinedD3 => none
  | .undefinedDB => none
  | .undefinedDD => none
  | .undefinedE3 => none
  | .undefinedE4 => none
  | .undefinedEB => none
  | .undefinedEC => none
  | .undefinedED => none
  | .undefinedF4 => none
  | .undefinedFC => none
  | .undefinedFD => none
  | .rlcR8 _ => some 2
  | .rlcHl => some 4
  | .rrcR8 _ => some 2
  | .rrcHl => some 4
  | .rlR8 _ => some 2
  | .rlHl => some 4
  | .rrR8 _ => some 2
  | .rrHl => some 4
  | .slaR8 _ => some 2
  | .slaHl => some 4
  | .sraR8 _ => some 2
  | .sraHl => some 4
  | .swapR8 _ => some 2
  | .swapHl => some 4
  | .srlR8 _ => some 2
  | .srlHl => some 4
  | .bitR8 _ _ => some 2
  | .bitHl _ => some 3
  | .resR8 _ _ => some 2
  | .resHl _ => some 4
  | .setR8 _ _ => some 2
  | .setHl _ => some 4

/-- Clock ticks of a number of M-cycles (R312). -/
def clockTicks (mCycles : Nat) : Nat := mCycles * Config.ticksPerMCycle

end Sys2Proof.Machine
end

