-- ==== Sys2Proof/Machine/Report.lean ====
section
/-! DEFINITION. What `step()` returns to the host (00_scope.md rule R7): "either the elapsed time in machine cycles or one of
the fault kinds", beside the state it leaves. -/

namespace Sys2Proof.Machine

/-- The M-cycles `step` reports from state `s`: those of the instruction it runs. There are none where the fetch
faults. -/
def stepCycles (s : State) : Option Nat :=
  match fetchInstr s with
  | .error _ => none
  | .ok (i, t) => instrCycles i t

/-- `step()` with its returned value (R7, R61, R310): the next state with the count, or the fault, which "returns no cycle
count". -/
def stepReport (s : State) : Host.Outcome (State × Option Nat) Fault Refusal :=
  match step s with
  | .next t => .next (t, stepCycles s)
  | .fault fault => .fault fault
  | .refused refusal => .refused refusal

end Sys2Proof.Machine
end

