-- ==== Sys2Proof/Safety.lean ====
section
/-! DEFINITION. The words the claims are stated in: the invariant of the state, the states the host can bring about, where an
instruction's bytes lie, the parts of the state, and which parts each instruction may write (10_state.md rule R26). -/

namespace Sys2Proof.Safety

open Sys2Proof.Machine

/-! ### Safe states -/

/-- What holds between steps: memory is in its canonical form (R21), bits 3:0 of F are 0 (R15), and `ime_pend` is `NONE`
or `ARMED0` (R23). -/
abbrev Inv (s : State) : Prop :=
  Memory.wf s.mem = true ∧ s.f &&& 0x0F#8 = 0#8 ∧ s.imePend ≠ .armed1

/-- The states the host can bring about with `construct`, `load_image` and `step` (R5 to R8). -/
inductive Reachable : State → Prop where
  | construct : Reachable State.reset
  | load {s t : State} {bytes : List Byte} : Reachable s → loadImage bytes s = .next t → Reachable t
  | step {s t : State} : Reachable s → step s = .next t → Reachable t

/-- The step neither faults nor is refused. -/
def StepsOn (s : State) : Prop := ∃ t, step s = .next t

/-! ### Where an instruction's bytes lie -/

/-- The state with PC moved past `n` bytes (R18). -/
def advance (s : State) (n : Nat) : State := s.setPc (s.pc + BitVec.ofNat 16 n)

/-- The bytes lie at PC, as far as memory reaches (R18, R60). -/
def HoldsAtPc (s : State) (bytes : List Byte) : Prop :=
  ∀ k, k < bytes.length → s.pc.toNat + k < Config.memSize → Memory.get s.mem (s.pc.toNat + k) = bytes.getD k 0#8

/-- All `n` bytes lie below 0xFFFF, the one address that is never fetched from (R19, R36). -/
def Fetchable (s : State) (n : Nat) : Prop := s.pc.toNat + n ≤ 0xFFFF

/-- The instruction is encoded by exactly these bytes, and the decoder reads it back from them. Stored at PC they make
the next step run it, on the state whose PC is past them, and the hook after it; where one of them would be fetched at
0xFFFF the step raises CounterOverflow (R36, R61, R273). -/
def FetchedFrom (i : Instr) (bytes : List Byte) : Prop :=
  encode i = bytes ∧
  (∀ rest, decode (bytes ++ rest) = .ok (i, rest)) ∧
  ∀ s : State,
    (Fetchable s bytes.length →
      step (placeBytes s bytes) = finishStep (exec i (advance (placeBytes s bytes) bytes.length))) ∧
    (¬ Fetchable s bytes.length → step (placeBytes s bytes) = .fault .counterOverflow)

/-! ### Parts of the state and frames -/

/-- A part of the state an instruction may write (R24): a register, F, PC, SP, the interrupt-control fields, or the `n`
bytes of memory from `start` on. -/
inductive Part where
  | r8 (r : R8)
  | f
  | pc
  | sp
  | ime
  | imePend
  | bytes (start : Word) (n : Nat)
deriving DecidableEq, Repr

/-- The two states agree on every part of the state outside the named parts. -/
def SameExcept (parts : List Part) (s t : State) : Prop :=
  (∀ r, .r8 r ∉ parts → t.getR8 r = s.getR8 r) ∧
  (.f ∉ parts → t.f = s.f) ∧
  (.pc ∉ parts → t.pc = s.pc) ∧
  (.sp ∉ parts → t.sp = s.sp) ∧
  (.ime ∉ parts → t.ime = s.ime) ∧
  (.imePend ∉ parts → t.imePend = s.imePend) ∧
  ∀ addr : Word,
    (∀ start n, .bytes start n ∈ parts → addr.toNat < start.toNat ∨ start.toNat + n ≤ addr.toNat) →
      read8 t addr = read8 s addr

/-- The parts of a 16-bit operand (R11, R64). -/
def r16Parts : R16 → List Part
  | .bc => [.r8 .b, .r8 .c]
  | .de => [.r8 .d, .r8 .e]
  | .hl => [.r8 .h, .r8 .l]
  | .sp => [.sp]

/-- The parts of a stack pair (R11, R65). -/
def r16StkParts : R16Stk → List Part
  | .bc => [.r8 .b, .r8 .c]
  | .de => [.r8 .d, .r8 .e]
  | .hl => [.r8 .h, .r8 .l]

/-- The parts of HL (R11). -/
def hlParts : List Part := [.r8 .h, .r8 .l]

/-- The part an 8-bit operand stands for: for `[HL]`, the byte at HL (R63). -/
def operandPart (s : State) : Operand8 → Part
  | .reg r => .r8 r
  | .indHL => .bytes s.hl 1

/-- What a CB instruction may write (R26): BIT writes flags only, RES and SET no flags. -/
def cbWrites (s : State) (o : Operand8) : CbOp → List Part
  | .rot _ => [operandPart s o, .f]
  | .bit _ => [.f]
  | .res _ => [operandPart s o]
  | .set _ => [operandPart s o]

/-- The two bytes a push in state `s` stores to, below SP (R38). -/
def pushedBytes (s : State) : Part := .bytes (s.sp - 2#16) 2

/-- What each instruction may write when it runs in state `s`, PC already past it (R26 and the rule of each
instruction). -/
def writes (s : State) : Instr → List Part
  | .nop => []
  | .ldR16N16 rr _ => r16Parts rr
  | .ldBcA => [.bytes s.bc 1]
  | .ldDeA => [.bytes s.de 1]
  | .ldHliA => .bytes s.hl 1 :: hlParts
  | .ldHldA => .bytes s.hl 1 :: hlParts
  | .ldABc => [.r8 .a]
  | .ldADe => [.r8 .a]
  | .ldAHli => .r8 .a :: hlParts
  | .ldAHld => .r8 .a :: hlParts
  | .ldA16Sp a16 => [.bytes a16 2]
  | .incR16 rr => r16Parts rr
  | .decR16 rr => r16Parts rr
  | .addHlR16 _ => .f :: hlParts
  | .incR8 r => [.r8 r, .f]
  | .incHl => [.bytes s.hl 1, .f]
  | .decR8 r => [.r8 r, .f]
  | .decHl => [.bytes s.hl 1, .f]
  | .ldR8N8 r _ => [.r8 r]
  | .ldHlN8 _ => [.bytes s.hl 1]
  | .rlca => [.r8 .a, .f]
  | .rrca => [.r8 .a, .f]
  | .rla => [.r8 .a, .f]
  | .rra => [.r8 .a, .f]
  | .daa => [.r8 .a, .f]
  | .cpl => [.r8 .a, .f]
  | .scf => [.f]
  | .ccf => [.f]
  | .jr _ => [.pc]
  | .jrCc cc _ => if s.cond cc then [.pc] else []
  | .stop => []
  | .ldR8R8 dst _ => [.r8 dst]
  | .ldR8Hl dst => [.r8 dst]
  | .ldHlR8 _ => [.bytes s.hl 1]
  | .halt => []
  | .addAR8 _ => [.r8 .a, .f]
  | .addAHl => [.r8 .a, .f]
  | .adcAR8 _ => [.r8 .a, .f]
  | .adcAHl => [.r8 .a, .f]
  | .subR8 _ => [.r8 .a, .f]
  | .subHl => [.r8 .a, .f]
  | .sbcAR8 _ => [.r8 .a, .f]
  | .sbcAHl => [.r8 .a, .f]
  | .andR8 _ => [.r8 .a, .f]
  | .andHl => [.r8 .a, .f]
  | .xorR8 _ => [.r8 .a, .f]
  | .xorHl => [.r8 .a, .f]
  | .orR8 _ => [.r8 .a, .f]
  | .orHl => [.r8 .a, .f]
  | .cpR8 _ => [.f]
  | .cpHl => [.f]
  | .addAN8 _ => [.r8 .a, .f]
  | .adcAN8 _ => [.r8 .a, .f]
  | .subN8 _ => [.r8 .a, .f]
  | .sbcAN8 _ => [.r8 .a, .f]
  | .andN8 _ => [.r8 .a, .f]
  | .xorN8 _ => [.r8 .a, .f]
  | .orN8 _ => [.r8 .a, .f]
  | .cpN8 _ => [.f]
  | .popR16 rr => .sp :: r16StkParts rr
  | .popAf => [.sp, .r8 .a, .f]
  | .pushR16 _ => [.sp, pushedBytes s]
  | .pushAf => [.sp, pushedBytes s]
  | .ldhCA => [.bytes (highPage s.c) 1]
  | .ldhA8A a8 => [.bytes (highPage a8) 1]
  | .ldA16A a16 => [.bytes a16 1]
  | .ldhAC => [.r8 .a]
  | .ldhAA8 _ => [.r8 .a]
  | .ldAA16 _ => [.r8 .a]
  | .addSpE8 _ => [.sp, .f]
  | .ldHlSpE8 _ => .f :: hlParts
  | .ldSpHl => [.sp]
  | .retCc cc => if s.cond cc then [.pc, .sp] else []
  | .ret => [.pc, .sp]
  | .reti => [.pc, .sp, .ime]
  | .jpCc cc _ => if s.cond cc then [.pc] else []
  | .jp _ => [.pc]
  | .jpHl => [.pc]
  | .callCc cc _ => if s.cond cc then [.pc, .sp, pushedBytes s] else []
  | .call _ => [.pc, .sp, pushedBytes s]
  | .rst _ => [.pc, .sp, pushedBytes s]
  | .di => [.ime, .imePend]
  | .ei => [.imePend]
  | .prefixCB => .pc :: cbWrites s (operand8 (fieldZ (read8 s s.pc))) (cbOpOf (read8 s s.pc))
  | .undefinedD3 => []
  | .undefinedDB => []
  | .undefinedDD => []
  | .undefinedE3 => []
  | .undefinedE4 => []
  | .undefinedEB => []
  | .undefinedEC => []
  | .undefinedED => []
  | .undefinedF4 => []
  | .undefinedFC => []
  | .undefinedFD => []
  | .rlcR8 r => cbWrites s (.reg r) (.rot .rlc)
  | .rlcHl => cbWrites s .indHL (.rot .rlc)
  | .rrcR8 r => cbWrites s (.reg r) (.rot .rrc)
  | .rrcHl => cbWrites s .indHL (.rot .rrc)
  | .rlR8 r => cbWrites s (.reg r) (.rot .rl)
  | .rlHl => cbWrites s .indHL (.rot .rl)
  | .rrR8 r => cbWrites s (.reg r) (.rot .rr)
  | .rrHl => cbWrites s .indHL (.rot .rr)
  | .slaR8 r => cbWrites s (.reg r) (.rot .sla)
  | .slaHl => cbWrites s .indHL (.rot .sla)
  | .sraR8 r => cbWrites s (.reg r) (.rot .sra)
  | .sraHl => cbWrites s .indHL (.rot .sra)
  | .swapR8 r => cbWrites s (.reg r) (.rot .swap)
  | .swapHl => cbWrites s .indHL (.rot .swap)
  | .srlR8 r => cbWrites s (.reg r) (.rot .srl)
  | .srlHl => cbWrites s .indHL (.rot .srl)
  | .bitR8 b r => cbWrites s (.reg r) (.bit b)
  | .bitHl b => cbWrites s .indHL (.bit b)
  | .resR8 b r => cbWrites s (.reg r) (.res b)
  | .resHl b => cbWrites s .indHL (.res b)
  | .setR8 b r => cbWrites s (.reg r) (.set b)
  | .setHl b => cbWrites s .indHL (.set b)

/-- The instructions that push in state `s` (R274). -/
def Pushes (s : State) (i : Instr) : Prop :=
  i = .pushAf ∨ (∃ rr, i = .pushR16 rr) ∨ (∃ a16, i = .call a16) ∨ (∃ t, i = .rst t) ∨
    ∃ cc a16, i = .callCc cc a16 ∧ s.cond cc = true

/-- The instructions that pop in state `s` (R274). -/
def Pops (s : State) (i : Instr) : Prop :=
  i = .popAf ∨ (∃ rr, i = .popR16 rr) ∨ i = .ret ∨ i = .reti ∨ ∃ cc, i = .retCc cc ∧ s.cond cc = true

/-! ### What the families of instructions leave in the state -/

/-- A holds the result, F the four flags, nothing else differs. -/
def Accumulated (x : Alu8) (s t : State) : Prop :=
  t.a = x.r ∧ t.f = packFlags x.z x.n x.h x.c ∧ SameExcept [.r8 .a, .f] s t

/-- The register holds the result, F is `z : n : h : C : 0b0000` with C as before, nothing else differs. -/
def SteppedR8 (r : R8) (x : Step8) (s t : State) : Prop :=
  t.getR8 r = x.r ∧ t.f = packFlags x.z x.n x.h s.flagC ∧ SameExcept [.r8 r, .f] s t

/-- The byte at HL holds the result, F is `z : n : h : C : 0b0000` with C as before, nothing else differs. -/
def SteppedHl (x : Step8) (s t : State) : Prop :=
  read8 t s.hl = x.r ∧ t.f = packFlags x.z x.n x.h s.flagC ∧ SameExcept [.bytes s.hl 1, .f] s t

/-- The register holds the rotated value, Z says whether it is 0, N and H are 0, C is the carry out. -/
def ShiftedR8 (r : R8) (x : Shift8) (s t : State) : Prop :=
  t.getR8 r = x.r ∧ t.f = packFlags (x.r == 0#8) false false x.co ∧ SameExcept [.r8 r, .f] s t

/-- The byte at HL holds the rotated value, Z says whether it is 0, N and H are 0, C is the carry out. -/
def ShiftedHl (x : Shift8) (s t : State) : Prop :=
  read8 t s.hl = x.r ∧ t.f = packFlags (x.r == 0#8) false false x.co ∧ SameExcept [.bytes s.hl 1, .f] s t

/-- SP is 2 lower, the word `v` lies there with its low byte first, nothing else differs but the named parts (R38). -/
def Pushed (v : Word) (others : List Part) (s t : State) : Prop :=
  t.sp = s.sp - 2#16 ∧ read8 t (s.sp - 2#16) = loByte v ∧ read8 t (s.sp - 1#16) = hiByte v ∧
    SameExcept (.sp :: pushedBytes s :: others) s t

/-- The word at SP: high byte at SP + 1, low byte at SP (R34, R39). -/
def stackTop (s : State) : Word := leWord (read8 s s.sp) (read8 s (s.sp + 1#16))

/-- SP is 2 higher, nothing else differs but the named parts (R39). -/
def Popped (others : List Part) (s t : State) : Prop :=
  t.sp = s.sp + 2#16 ∧ SameExcept (.sp :: others) s t

end Sys2Proof.Safety
end

