-- ==== Sys2Proof/Certificates/Slice0/Obligations.lean ====
section
/-! DEFINITION. The statements for the provers, from the numbered rules of spec/. An encoding in a statement is written as the
rules print it (`0b00#2 ++ r8Code r ++ 0b100#3` is `00yyy100`); the bit patterns and most costs are the spec's own
supply (D20, D25; log entry 3). -/

open Sys2Proof Sys2Proof.Machine Sys2Proof.Safety

/-- After construct every 8-bit register and F are 0x00 (so all four flags are clear), PC and SP are 0x0000, every byte
of memory reads 0x00, ime is 0 and ime_pend is NONE. PC and SP are the spec's decisions D1 and D2 (log entry 1).
[derived: 10_state.md section 6, 92_eei_decisions.md D1, D2] -/
def Obligations.ResetIsTheAllZeroState : Prop :=
  (∀ r, State.reset.getR8 r = 0x00#8) ∧ State.reset.f = 0x00#8 ∧
  State.reset.flagZ = false ∧ State.reset.flagN = false ∧ State.reset.flagH = false ∧ State.reset.flagC = false ∧
  State.reset.pc = 0x0000#16 ∧ State.reset.sp = 0x0000#16 ∧
  (∀ addr, read8 State.reset addr = 0x00#8) ∧ State.reset.ime = false ∧ State.reset.imePend = .none

/-- From any state, load_image of at most 65280 bytes answers a state with PC = 0x0100 in which byte k of the image is
at 0x0100 + k, every address outside the window reads as before and no register, SP, ime or ime_pend differs; of
more than 65280 bytes it fails with CapacityExceeded. That a machine which has already run may be loaded again is
the spec's decision D19 (R49, R301). [derived: 20_memory.md R49, 10_state.md section 6, 92_eei_decisions.md D19] -/
def Obligations.LoadImageFillsTheWindow : Prop :=
  ∀ (bytes : List Byte) (s : State),
    (bytes.length ≤ 65280 →
      ∃ t, loadImage bytes s = .next t ∧ t.pc = 0x0100#16 ∧
        (∀ k, k < bytes.length → read8 t (BitVec.ofNat 16 (0x0100 + k)) = bytes.getD k 0#8) ∧
        (∀ addr : Word, (addr.toNat < 0x0100 ∨ 0x0100 + bytes.length ≤ addr.toNat) → read8 t addr = read8 s addr) ∧
        (∀ r, t.getR8 r = s.getR8 r) ∧ t.f = s.f ∧ t.sp = s.sp ∧ t.ime = s.ime ∧ t.imePend = s.imePend) ∧
    (65280 < bytes.length → loadImage bytes s = .fault .capacityExceeded)

/-- A byte written at an address is what that address reads afterwards, every other address reads as before, and nothing
but memory differs: no register, F, PC, SP, ime or ime_pend. [stated: R33] -/
def Obligations.ByteWriteChangesOneByte : Prop :=
  ∀ (s : State) (addr : Word) (v : Byte),
    read8 (write8 s addr v) addr = v ∧ SameExcept [.bytes addr 1] s (write8 s addr v)

/-- At every address but 0xFFFF, MemRead(addr, 2) is 256 times the byte at addr + 1 plus the byte at addr, and
MemWrite(addr, 2, v) puts v[7:0] at addr and v[15:8] at addr + 1 and changes nothing else; at 0xFFFF both raise
OutOfBounds (the spec's decision D3). [derived: 20_memory.md section 2, 92_eei_decisions.md D3] -/
def Obligations.WordsAreLittleEndian : Prop :=
  ∀ (s : State) (addr v : Word),
    (addr ≠ 0xFFFF#16 →
      (∃ w, read16 s addr = .ok w ∧ w.toNat = 256 * (read8 s (addr + 1#16)).toNat + (read8 s addr).toNat) ∧
      ∃ t, write16 s addr v = .ok t ∧ (read8 t addr).toNat = v.toNat % 256 ∧
        (read8 t (addr + 1#16)).toNat = v.toNat / 256 ∧ SameExcept [.bytes addr 2] s t) ∧
    (addr = 0xFFFF#16 → read16 s addr = .error .outOfBounds ∧ write16 s addr v = .error .outOfBounds)

/-- Fetch8 raises CounterOverflow at PC = 0xFFFF and otherwise gives the byte at PC and moves PC by 1; Fetch16 raises
CounterOverflow at PC >= 0xFFFE and otherwise gives the two bytes at PC, low byte first, and moves PC by 2. Nothing
but PC differs. [stated: R36, R37] -/
def Obligations.FetchReadsAtPcAndAdvances : Prop :=
  ∀ s : State,
    (s.pc = 0xFFFF#16 → fetch8 s = .error .counterOverflow) ∧
    (s.pc ≠ 0xFFFF#16 → fetch8 s = .ok (read8 s s.pc, advance s 1)) ∧
    (0xFFFE#16 ≤ s.pc → fetch16 s = .error .counterOverflow) ∧
    (s.pc < 0xFFFE#16 → ∃ w, fetch16 s = .ok (w, advance s 2) ∧
      w.toNat = 256 * (read8 s (s.pc + 1#16)).toNat + (read8 s s.pc).toNat)

/-- Push16 raises StackOverflow at SP < 2; otherwise SP goes down by 2 and the word lies at the new SP, low byte first,
nothing else differing. Pop16 raises OutOfBounds at SP = 0xFFFF and StackOverflow at SP = 0xFFFE; otherwise it gives
the word at SP and moves SP up by 2, nothing else differing. That a pop at SP = 0xFFFC succeeds, as R39 has it and
against R303 and R274, is the model's choice (log entry 15). [derived: 20_memory.md R38, R39, log entry 15] -/
def Obligations.PushAndPopMoveTheStack : Prop :=
  ∀ (s : State) (v : Word),
    (s.sp < 2#16 → push16 s v = .error .stackOverflow) ∧
    (2#16 ≤ s.sp → ∃ t, push16 s v = .ok t ∧ Pushed v [] s t) ∧
    (s.sp = 0xFFFF#16 → pop16 s = .error .outOfBounds) ∧
    (s.sp = 0xFFFE#16 → pop16 s = .error .stackOverflow) ∧
    (s.sp ≤ 0xFFFD#16 → pop16 s = .ok (stackTop s, s.setSp (s.sp + 2#16)))

/-- For every word v and every SP >= 2, Push16(v) succeeds and the Pop16 after it gives v and leaves SP at its starting
value. That it holds at SP = 0xFFFE, as R40 has it and against R303 and R274, is the model's choice (log entry 15).
[derived: 20_memory.md R40, log entry 15] -/
def Obligations.PopUndoesPush : Prop :=
  ∀ (s : State) (v : Word), 2#16 ≤ s.sp →
    ∃ t u, push16 s v = .ok t ∧ pop16 t = .ok (v, u) ∧ u.sp = s.sp

/-- The flag byte made of z, n, h, c has them in bits 7, 6, 5, 4 and zeros in bits 3 to 0, and the flags read from F are
its bits 7, 6, 5, 4. [derived: 10_state.md section 2, 00_scope.md section 7] -/
def Obligations.FlagByteLayout : Prop :=
  (∀ z n h c : Bool,
    (packFlags z n h c).toNat = 128 * z.toNat + 64 * n.toNat + 32 * h.toNat + 16 * c.toNat) ∧
  ∀ s : State, s.flagZ = decide (s.f.toNat / 128 % 2 = 1) ∧ s.flagN = decide (s.f.toNat / 64 % 2 = 1) ∧
    s.flagH = decide (s.f.toNat / 32 % 2 = 1) ∧ s.flagC = decide (s.f.toNat / 16 % 2 = 1)

/-- For all operands: the result of each helper modulo its width, and each of its flags, as rules R90 to R93 and R96
give them on unbounded integers (for sbc8, H is the borrow out of bit 3 of the three-operand subtraction: not the
source's formula but the spec's own resolution C1 of 90_conflicts.md, log entry 3). [derived: 40_arith_helpers.md
R90 to R93, R96, 90_conflicts.md C1] -/
def Obligations.AdditionAndSubtractionHelpers : Prop :=
  (∀ a b : Byte, (add8 a b).r.toNat = (a.toNat + b.toNat) % 256 ∧
    ((add8 a b).z = true ↔ (a.toNat + b.toNat) % 256 = 0) ∧ (add8 a b).n = false ∧
    ((add8 a b).h = true ↔ 0xF < a.toNat % 16 + b.toNat % 16) ∧ ((add8 a b).c = true ↔ 255 < a.toNat + b.toNat)) ∧
  (∀ (a b : Byte) (cin : Bool), (adc8 a b cin).r.toNat = (a.toNat + b.toNat + cin.toNat) % 256 ∧
    ((adc8 a b cin).z = true ↔ (a.toNat + b.toNat + cin.toNat) % 256 = 0) ∧ (adc8 a b cin).n = false ∧
    ((adc8 a b cin).h = true ↔ 0xF < a.toNat % 16 + b.toNat % 16 + cin.toNat) ∧
    ((adc8 a b cin).c = true ↔ 255 < a.toNat + b.toNat + cin.toNat)) ∧
  (∀ a b : Byte, (sub8 a b).r.toNat = (a.toNat + 256 - b.toNat) % 256 ∧
    ((sub8 a b).z = true ↔ a = b) ∧ (sub8 a b).n = true ∧
    ((sub8 a b).h = true ↔ a.toNat % 16 < b.toNat % 16) ∧ ((sub8 a b).c = true ↔ a.toNat < b.toNat)) ∧
  (∀ (a b : Byte) (cin : Bool), (sbc8 a b cin).r.toNat = (a.toNat + 512 - b.toNat - cin.toNat) % 256 ∧
    ((sbc8 a b cin).z = true ↔ (a.toNat + 512 - b.toNat - cin.toNat) % 256 = 0) ∧ (sbc8 a b cin).n = true ∧
    ((sbc8 a b cin).h = true ↔ a.toNat % 16 < b.toNat % 16 + cin.toNat) ∧
    ((sbc8 a b cin).c = true ↔ a.toNat < b.toNat + cin.toNat)) ∧
  ∀ a b : Word, (add16 a b).r.toNat = (a.toNat + b.toNat) % 65536 ∧
    ((add16 a b).h = true ↔ 0x0FFF < a.toNat % 4096 + b.toNat % 4096) ∧
    ((add16 a b).c = true ↔ 65535 < a.toNat + b.toNat)

/-- For every byte: inc8 gives (a + 1) mod 256 with Z for 0, N clear, H when the low nibble was 0xF; dec8 gives (a - 1)
mod 256 with Z for 0, N set, H when the low nibble was 0. That Z says the result is 0 is the spec's own inference in
R94. [derived: 40_arith_helpers.md section 1] -/
def Obligations.IncrementAndDecrementHelpers : Prop :=
  ∀ a : Byte,
    (inc8 a).r.toNat = (a.toNat + 1) % 256 ∧ ((inc8 a).z = true ↔ a.toNat = 255) ∧ (inc8 a).n = false ∧
    ((inc8 a).h = true ↔ a.toNat % 16 = 0xF) ∧
    (dec8 a).r.toNat = (a.toNat + 255) % 256 ∧ ((dec8 a).z = true ↔ a.toNat = 1) ∧ (dec8 a).n = true ∧
    ((dec8 a).h = true ↔ a.toNat % 16 = 0x0)

/-- add8 on the low bytes and adc8 with its carry on the high bytes give the two bytes, the H and the C of add16 on the
words; sub8 and sbc8 in the same way give the two bytes of the 16-bit difference and a borrow exactly when the first
word is the lower. [derived: 40_arith_helpers.md R90 to R93, R96, 40_arith_helpers.md section 3] -/
def Obligations.CarryChainsMakeWordArithmetic : Prop :=
  ∀ x y : Word,
    (let lo := add8 (loByte x) (loByte y)
     let hi := adc8 (hiByte x) (hiByte y) lo.c
     leWord lo.r hi.r = (add16 x y).r ∧ hi.h = (add16 x y).h ∧ hi.c = (add16 x y).c) ∧
    (let lo := sub8 (loByte x) (loByte y)
     let hi := sbc8 (hiByte x) (hiByte y) lo.c
     leWord lo.r hi.r = x - y ∧ (hi.c = true ↔ x < y))

/-- For every byte, carry and bit position, where each bit of the result of rlc, rrc, rl, rr, sla, sra, swap and srl
comes from, and the carry out of each. [stated: R100] -/
def Obligations.RotatesMoveEveryBit : Prop :=
  ∀ (v : Byte) (cin : Bool),
    (∀ i, i < 8 → (rlc v).r.getLsbD i = v.getLsbD ((i + 7) % 8)) ∧ (rlc v).co = v.getLsbD 7 ∧
    (∀ i, i < 8 → (rrc v).r.getLsbD i = v.getLsbD ((i + 1) % 8)) ∧ (rrc v).co = v.getLsbD 0 ∧
    (∀ i, i < 8 → (rl v cin).r.getLsbD i = if i = 0 then cin else v.getLsbD (i - 1)) ∧ (rl v cin).co = v.getLsbD 7 ∧
    (∀ i, i < 8 → (rr v cin).r.getLsbD i = if i = 7 then cin else v.getLsbD (i + 1)) ∧ (rr v cin).co = v.getLsbD 0 ∧
    (∀ i, i < 8 → (sla v).r.getLsbD i = if i = 0 then false else v.getLsbD (i - 1)) ∧ (sla v).co = v.getLsbD 7 ∧
    (∀ i, i < 8 → (sra v).r.getLsbD i = if i = 7 then v.getLsbD 7 else v.getLsbD (i + 1)) ∧ (sra v).co = v.getLsbD 0 ∧
    (∀ i, i < 8 → (swap v).r.getLsbD i = v.getLsbD ((i + 4) % 8)) ∧ (swap v).co = false ∧
    (∀ i, i < 8 → (srl v).r.getLsbD i = if i = 7 then false else v.getLsbD (i + 1)) ∧ (srl v).co = v.getLsbD 0

/-- For every byte a and all flags h, c: daa after an addition adds 0x06 when h is set or the low nibble of a exceeds 9,
and 0x60 when c is set or a exceeds 0x99, both tests on the original a, and its C is set in that second case; daa
after a subtraction subtracts 0x06 when h is set and 0x60 when c is set, and keeps c; modulo 256, Z says whether the
result is 0, N is as given, H is 0. For all decimal numbers x, y below 100 written as two decimal digits in a byte:
daa after add8 gives the digits of (x + y) mod 100 and a carry exactly when x + y >= 100; daa after sub8 gives the
digits of (x - y) mod 100 and keeps a borrow exactly when x < y. The algorithm is the spec's own supply (R101, its
decision D15; log entry 3). [derived: 40_arith_helpers.md R101, 41_group0.md (DAA), 92_eei_decisions.md D15] -/
def Obligations.DaaMakesDecimalArithmetic : Prop :=
  (∀ (a : Byte) (h c : Bool),
    let adj := (if h = true ∨ 9 < a.toNat % 16 then 0x06 else 0) + (if c = true ∨ 0x99 < a.toNat then 0x60 else 0)
    let x := daa a false h c
    x.r.toNat = (a.toNat + adj) % 256 ∧ (x.z = true ↔ x.r = 0#8) ∧ x.n = false ∧ x.h = false ∧
      (x.c = true ↔ c = true ∨ 0x99 < a.toNat)) ∧
  (∀ (a : Byte) (h c : Bool),
    let adj := (if h = true then 0x06 else 0) + (if c = true then 0x60 else 0)
    let x := daa a true h c
    x.r.toNat = (a.toNat + 256 - adj) % 256 ∧ (x.z = true ↔ x.r = 0#8) ∧ x.n = true ∧ x.h = false ∧ x.c = c) ∧
  ∀ x y : Nat, x < 100 → y < 100 →
    let bcd := fun n : Nat => BitVec.ofNat 8 (16 * (n / 10) + n % 10)
    let sum := add8 (bcd x) (bcd y)
    let diff := sub8 (bcd x) (bcd y)
    (daa sum.r sum.n sum.h sum.c).r = bcd ((x + y) % 100) ∧
    ((daa sum.r sum.n sum.h sum.c).c = true ↔ 100 ≤ x + y) ∧
    (daa diff.r diff.n diff.h diff.c).r = bcd ((x + 100 - y) % 100) ∧
    ((daa diff.r diff.n diff.h diff.c).c = true ↔ x < y)

/-- For every well-formed instruction, with every operand at every value, and whatever bytes follow, decoding its
encoding gives exactly it and the bytes that follow. [derived: 30_encoding.md sections 1 to 5] -/
def Obligations.DecodingUndoesEncoding : Prop :=
  ∀ (i : Instr) (rest : List Byte), i.wellFormed = true → decode (encode i ++ rest) = .ok (i, rest)

/-- Whenever the decoder reads an instruction from a list of bytes, that list is the instruction's encoding followed by
the bytes the decoder left: no bit of an encoding is dropped. [derived: 30_encoding.md sections 1 to 5] -/
def Obligations.EncodingUndoesDecoding : Prop :=
  ∀ (bytes rest : List Byte) (i : Instr), decode bytes = .ok (i, rest) → bytes = encode i ++ rest

/-- The byte sequences the spec's examples write out decode to the instructions they stand for, one or more for each
group. [derived: 95_test_vectors.md section 2] -/
def Obligations.KnownWordsDecode : Prop :=
  decode [0x3E#8, 0x05#8] = .ok (.ldR8N8 .a 0x05#8, []) ∧ decode [0x3C#8] = .ok (.incR8 .a, []) ∧
  decode [0x21#8, 0x34#8, 0x12#8] = .ok (.ldR16N16 .hl 0x1234#16, []) ∧
  decode [0x20#8, 0x03#8] = .ok (.jrCc .nz 0x03#8, []) ∧ decode [0x66#8] = .ok (.ldR8Hl .h, []) ∧
  decode [0x76#8] = .ok (.halt, []) ∧ decode [0x9C#8] = .ok (.sbcAR8 .h, []) ∧
  decode [0xDA#8, 0x00#8, 0x02#8] = .ok (.jpCc .c 0x0200#16, []) ∧ decode [0xEF#8] = .ok (.rst 5#3, []) ∧
  decode [0xF1#8] = .ok (.popAf, []) ∧ decode [0xCB#8, 0xCB#8] = .ok (.setR8 1#3 .e, []) ∧
  decode [0xCB#8, 0x76#8] = .ok (.bitHl 6#3, []) ∧ decode [0xD3#8] = .ok (.undefinedD3, [])

/-- Any three bytes decode; the first bytes that are undefined are exactly the eleven of R77, the one prefix is 0xCB,
and the other 244 are instructions; the 256 CB second bytes are all instructions. [derived: 30_encoding.md section
5, 92_eei_decisions.md D16, D25] -/
def Obligations.EveryOpcodeByteHasOneRow : Prop :=
  (∀ (op b1 b2 : Byte) (rest : List Byte), ∃ i left, decode (op :: b1 :: b2 :: rest) = .ok (i, left) ∧ i ≠ .prefixCB) ∧
  (∀ op : Byte, instrFormat (decodeFirst op 0#8 0#16) = .illegal ↔
    op ∈ [0xD3#8, 0xDB#8, 0xDD#8, 0xE3#8, 0xE4#8, 0xEB#8, 0xEC#8, 0xED#8, 0xF4#8, 0xFC#8, 0xFD#8]) ∧
  (∀ op : Byte, decodeFirst op 0#8 0#16 = .prefixCB ↔ op = 0xCB#8) ∧
  ∀ cb : Byte, instrFormat (decodeCb cb) = .cbOp

/-- The eight r8 codes name B, C, D, E, H, L, [HL], A; the r16 codes BC, DE, HL, SP; the r16stk codes BC, DE, HL, AF, as
the eight POP and PUSH bytes decode; the conditions NZ, Z, NC, C, each true when the flag it tests says so; the
eight accumulator and the eight rotate operations stand in the spec's order; the encoder's register, pair and
condition codes are the same numbers. [derived: 30_encoding.md section 2, 92_eei_decisions.md D21] -/
def Obligations.OperandCodeTables : Prop :=
  ((List.range 8).map fun c => operand8 (BitVec.ofNat 3 c)) =
    [.reg .b, .reg .c, .reg .d, .reg .e, .reg .h, .reg .l, .indHL, .reg .a] ∧
  ((List.range 4).map fun p => operand16 (BitVec.ofNat 2 p)) = [.bc, .de, .hl, .sp] ∧
  ((List.range 4).map fun cc => condOf (BitVec.ofNat 2 cc)) = [.nz, .z, .nc, .c] ∧
  ((List.range 8).map fun o => aluOf (BitVec.ofNat 3 o)) = [.add, .adc, .sub, .sbc, .and, .xor, .or, .cp] ∧
  ((List.range 8).map fun y => rotOf (BitVec.ofNat 3 y)) = [.rlc, .rrc, .rl, .rr, .sla, .sra, .swap, .srl] ∧
  [R8.b, .c, .d, .e, .h, .l, .a].map r8Code = [0, 1, 2, 3, 4, 5, 7] ∧
  [R16.bc, .de, .hl, .sp].map r16Code = [0, 1, 2, 3] ∧
  [R16Stk.bc, .de, .hl].map r16StkCode = [0, 1, 2] ∧
  [Cond.nz, .z, .nc, .c].map condCode = [0, 1, 2, 3] ∧
  ([0xC1#8, 0xD1#8, 0xE1#8, 0xF1#8].map fun op => decode [op]) =
    [.ok (.popR16 .bc, []), .ok (.popR16 .de, []), .ok (.popR16 .hl, []), .ok (.popAf, [])] ∧
  ([0xC5#8, 0xD5#8, 0xE5#8, 0xF5#8].map fun op => decode [op]) =
    [.ok (.pushR16 .bc, []), .ok (.pushR16 .de, []), .ok (.pushR16 .hl, []), .ok (.pushAf, [])] ∧
  ∀ s : State, (s.cond .nz = true ↔ s.f.getLsbD 7 = false) ∧ (s.cond .z = true ↔ s.f.getLsbD 7 = true) ∧
    (s.cond .nc = true ↔ s.f.getLsbD 4 = false) ∧ (s.cond .c = true ↔ s.f.getLsbD 4 = true)

/-- When the bytes at PC are those of a well-formed instruction and all of them can be fetched, step is exec of that
instruction on the state with PC past them, followed by the hook where exec answers a next state, and the count
reported is the instruction's; a fault of exec ends the step with that fault, no hook and no count. [stated: R61] -/
def Obligations.StepRunsTheDecodedInstruction : Prop :=
  ∀ (s : State) (i : Instr), i.wellFormed = true → HoldsAtPc s (encode i) → Fetchable s (encode i).length →
    let u := advance s (encode i).length
    (∀ t, exec i u = .next t → step s = .next (imeHook t) ∧ stepReport s = .next (imeHook t, instrCycles i u)) ∧
    (∀ k, exec i u = .fault k → step s = .fault k ∧ stepReport s = .fault k)

/-- A step at PC = 0xFFFF raises CounterOverflow whatever lies there; so does one whose instruction has a byte that
would be fetched at 0xFFFF; a one-byte instruction at 0xFFFE whose effect does not touch PC is run and leaves PC =
0xFFFF, and an undefined opcode at 0xFFFE raises UndefinedOpcode (the spec's decisions D16 and D18, R222 and R278).
A one-byte jump, return or RST at 0xFFFE sets PC itself: O19 covers it. [derived: 60_exceptions.md R273, R278,
45_group3_control.md R222, 92_eei_decisions.md D16, D18] -/
def Obligations.FetchFaultsAtTheTopOfMemory : Prop :=
  ∀ s : State,
    (s.pc = 0xFFFF#16 → step s = .fault .counterOverflow) ∧
    (∀ i : Instr, i.wellFormed = true → HoldsAtPc s (encode i) → ¬ Fetchable s (encode i).length →
      step s = .fault .counterOverflow) ∧
    (∀ (i : Instr) (t : State), i.wellFormed = true → s.pc = 0xFFFE#16 → HoldsAtPc s (encode i) →
      (encode i).length = 1 → exec i (advance s 1) = .next t → .pc ∉ writes (advance s 1) i →
      step s = .next (imeHook t) ∧ t.pc = 0xFFFF#16) ∧
    (∀ op : Byte, s.pc = 0xFFFE#16 → HoldsAtPc s [op] → instrFormat (decodeFirst op 0#8 0#16) = .illegal →
      step s = .fault (.undefinedOpcode op))

/-- For every state in which memory has its canonical form, bits 3:0 of F are 0 and ime_pend is NONE or ARMED0, if step
answers a next state then the same holds in it. That memory has a canonical form is the model's own choice (log
entry 14), as is holding F as 8 bits and ime_pend with three values (log entries 7 and 8). [derived: 10_state.md
section 2, 10_state.md section 5, 60_exceptions.md section 2, log entries 7, 8, 14] -/
def Obligations.StepKeepsTheInvariant : Prop :=
  ∀ s t : State, Inv s → step s = .next t → Inv t

/-- After construct memory has its canonical form, bits 3:0 of F are 0 and ime_pend is not ARMED1
(ResetIsTheAllZeroState says that it is NONE). The clause on memory's canonical form is the model's own choice (log
entry 14). [derived: 10_state.md section 6, log entry 14] -/
def Obligations.ResetMeetsTheInvariant : Prop :=
  Inv State.reset

/-- In every state reached from construct by any sequence of load_image calls with any images and of steps, memory has
its canonical form, bits 3:0 of F are 0, and ime_pend is NONE or ARMED0. The clause on memory's canonical form is
the model's own choice (log entry 14). [derived: 10_state.md section 2, 10_state.md section 5, 00_scope.md section
6, log entries 7, 8, 14] -/
def Obligations.ReachableStatesMeetTheInvariant : Prop :=
  ∀ s : State, Reachable s → Inv s

/-- With PC not at 0xFFFF the prefix fetches the second byte, and answers the next state of the CB instruction that byte
selects, run with PC past both bytes; the count reported is that instruction's. With PC at 0xFFFF it raises
CounterOverflow. That the prefix has an arm of exec (log entry 5) and reports that count (log entry 11; R310 gives
the prefix no cost of its own) is the model's choice. [derived: 45_group3_control.md R221, 30_encoding.md R61,
70_reset_and_hazards.md R310, log entries 5, 11] -/
def Obligations.PrefixRunsTheSelectedCbInstruction : Prop :=
  ∀ s : State,
    (s.pc ≠ 0xFFFF#16 → ∃ t, exec .prefixCB s = .next t ∧
      exec (decodeCb (read8 s s.pc)) (advance s 1) = .next t ∧
      instrCycles .prefixCB s = instrCycles (decodeCb (read8 s s.pc)) (advance s 1)) ∧
    (s.pc = 0xFFFF#16 → exec .prefixCB s = .fault .counterOverflow)

/-- Each of the eleven undefined first bytes is a one-byte encoding whose execution raises UndefinedOpcode carrying that
byte, in every state, with no cycle count (a fault returns none, R271 and R310). The list is the spec's decision
D16; that each is an instruction of the model whose execution faults is the model's reading (log entry 10).
[derived: 45_group3_control.md R222, 60_exceptions.md R271, 70_reset_and_hazards.md R310, 92_eei_decisions.md D16,
log entry 10] -/
def Obligations.UndefinedOpcodesFault : Prop :=
  FetchedFrom .undefinedD3 [0xD3#8] ∧
  FetchedFrom .undefinedDB [0xDB#8] ∧
  FetchedFrom .undefinedDD [0xDD#8] ∧
  FetchedFrom .undefinedE3 [0xE3#8] ∧
  FetchedFrom .undefinedE4 [0xE4#8] ∧
  FetchedFrom .undefinedEB [0xEB#8] ∧
  FetchedFrom .undefinedEC [0xEC#8] ∧
  FetchedFrom .undefinedED [0xED#8] ∧
  FetchedFrom .undefinedF4 [0xF4#8] ∧
  FetchedFrom .undefinedFC [0xFC#8] ∧
  FetchedFrom .undefinedFD [0xFD#8] ∧
  ∀ s : State,
    exec .undefinedD3 s = .fault (.undefinedOpcode 0xD3#8) ∧ instrCycles .undefinedD3 s = none ∧
    exec .undefinedDB s = .fault (.undefinedOpcode 0xDB#8) ∧ instrCycles .undefinedDB s = none ∧
    exec .undefinedDD s = .fault (.undefinedOpcode 0xDD#8) ∧ instrCycles .undefinedDD s = none ∧
    exec .undefinedE3 s = .fault (.undefinedOpcode 0xE3#8) ∧ instrCycles .undefinedE3 s = none ∧
    exec .undefinedE4 s = .fault (.undefinedOpcode 0xE4#8) ∧ instrCycles .undefinedE4 s = none ∧
    exec .undefinedEB s = .fault (.undefinedOpcode 0xEB#8) ∧ instrCycles .undefinedEB s = none ∧
    exec .undefinedEC s = .fault (.undefinedOpcode 0xEC#8) ∧ instrCycles .undefinedEC s = none ∧
    exec .undefinedED s = .fault (.undefinedOpcode 0xED#8) ∧ instrCycles .undefinedED s = none ∧
    exec .undefinedF4 s = .fault (.undefinedOpcode 0xF4#8) ∧ instrCycles .undefinedF4 s = none ∧
    exec .undefinedFC s = .fault (.undefinedOpcode 0xFC#8) ∧ instrCycles .undefinedFC s = none ∧
    exec .undefinedFD s = .fault (.undefinedOpcode 0xFD#8) ∧ instrCycles .undefinedFD s = none

/-- Over all instructions and states: exec raises StackOverflow exactly when a push runs with SP < 2 or a pop with SP =
0xFFFE; OutOfBounds exactly for LD [a16],SP at 0xFFFF or a pop with SP = 0xFFFF; UndefinedOpcode exactly for the
undefined opcodes; CounterOverflow exactly for a prefix with PC at 0xFFFF; never CapacityExceeded; and it never
refuses (HALT under the chosen HALT_MODE, log entry 2). That a pop at SP = 0xFFFC succeeds, as R39 has it and
against R303 and R274, is the model's choice (log entry 15). [derived: 60_exceptions.md section 1,
92_eei_decisions.md D3, D4, D9, D16, log entry 15] -/
def Obligations.FaultsOnlyWhereTheSpecSays : Prop :=
  ∀ (i : Instr) (s : State),
    (exec i s = .fault .stackOverflow ↔ (Pushes s i ∧ s.sp < 2#16) ∨ (Pops s i ∧ s.sp = 0xFFFE#16)) ∧
    (exec i s = .fault .outOfBounds ↔ i = .ldA16Sp 0xFFFF#16 ∨ (Pops s i ∧ s.sp = 0xFFFF#16)) ∧
    ((∃ op, exec i s = .fault (.undefinedOpcode op)) ↔ instrFormat i = .illegal) ∧
    (exec i s = .fault .counterOverflow ↔ i = .prefixCB ∧ s.pc = 0xFFFF#16) ∧
    exec i s ≠ .fault .capacityExceeded ∧ ∀ k, exec i s ≠ .refused k

/-- Over all instructions and states: when exec answers a next state, every register, F, PC, SP, ime, ime_pend and every
byte of memory outside the parts listed for the instruction (its destinations, and for a store the bytes at the
address the instruction computes) is as before. [derived: 10_state.md section 7, 10_state.md section 2] -/
def Obligations.NothingElseIsWritten : Prop :=
  ∀ (i : Instr) (s t : State), exec i s = .next t → SameExcept (writes s i) s t

/-- From a state with no enable in flight, the step that runs EI leaves ime as it was and ime_pend = ARMED0. In any
state with ime_pend = ARMED0, the step that runs an instruction other than DI to its end leaves ime = 1 and ime_pend
= NONE, the step that runs DI leaves ime = 0 and ime_pend = NONE, and a step whose instruction faults gives no
state. [stated: R305] -/
def Obligations.EnableComesOneInstructionLate : Prop :=
  ∀ s : State,
    (s.imePend = .none → HoldsAtPc s [0xFB#8] → Fetchable s 1 →
      ∃ t, step s = .next t ∧ t.ime = s.ime ∧ t.imePend = .armed0 ∧ t.pc = s.pc + 1#16) ∧
    (s.imePend = .armed0 → ∀ i : Instr, i.wellFormed = true → HoldsAtPc s (encode i) → Fetchable s (encode i).length →
      (∀ t, exec i (advance s (encode i).length) = .next t →
        ∃ u, step s = .next u ∧ u.imePend = .none ∧ u.ime = decide (i ≠ .di)) ∧
      (∀ k, exec i (advance s (encode i).length) = .fault k → step s = .fault k))

/-- No instruction but DI and RETI changes ime, DI to 0 and RETI to 1; no instruction but EI and DI changes ime_pend;
the hook alone changes either after the instruction, from ARMED1 to ARMED0, and from ARMED0 to ime = 1 and NONE.
[derived: 60_exceptions.md section 2] -/
def Obligations.OnlyDiRetiEiWriteInterruptControl : Prop :=
  (∀ (i : Instr) (s t : State), exec i s = .next t →
    (i ≠ .di → i ≠ .reti → t.ime = s.ime) ∧ (i = .di → t.ime = false) ∧ (i = .reti → t.ime = true) ∧
    (i ≠ .di → i ≠ .ei → t.imePend = s.imePend)) ∧
  ∀ s : State,
    (s.imePend = .armed1 → imeHook s = { s with imePend := .armed0 }) ∧
    (s.imePend = .armed0 → imeHook s = { s with ime := true, imePend := .none }) ∧
    (s.imePend = .none → imeHook s = s)

/-- Changing ime and ime_pend in any way before an instruction changes nothing of what the instruction does to the
registers, F, PC, SP and memory, nor whether it faults. [derived: 60_exceptions.md section 2, 92_eei_decisions.md
D13] -/
def Obligations.InterruptControlNeverSteersAnInstruction : Prop :=
  ∀ (i : Instr) (s : State) (enabled : Bool) (pend : ImePend),
    (∀ t, exec i s = .next t →
      ∃ u, exec i { s with ime := enabled, imePend := pend } = .next u ∧
        { u with ime := t.ime, imePend := t.imePend } = t) ∧
    (∀ k, exec i s = .fault k → exec i { s with ime := enabled, imePend := pend } = .fault k)

/-- DI completes in every state: ime is 0 and ime_pend NONE afterwards, nothing else differs; it is the byte 0xF3 and
costs 1 M-cycle. [stated: R219] -/
def Obligations.DiActsAtOnce : Prop :=
  FetchedFrom .di [0xF3#8] ∧
  ∀ s : State, (∃ t, exec .di s = .next t ∧ t.ime = false ∧ t.imePend = .none ∧ SameExcept [.ime, .imePend] s t) ∧
    instrCycles .di s = some 1

/-- EI completes in every state: with ime_pend NONE it becomes ARMED1, otherwise it stays as it is (the spec's decision
D7); nothing else differs, ime included; it is the byte 0xFB and costs 1 M-cycle. [derived: 45_group3_control.md
(EI), 92_eei_decisions.md D7] -/
def Obligations.EiArmsTheDelay : Prop :=
  FetchedFrom .ei [0xFB#8] ∧
  ∀ s : State,
    (∃ t, exec .ei s = .next t ∧ SameExcept [.imePend] s t ∧
      t.imePend = if s.imePend = .none then .armed1 else s.imePend) ∧
    instrCycles .ei s = some 1

/-- A taken JR cc or JP cc costs 1 M-cycle more, a taken CALL cc or RET cc 3 more than one not taken, whatever the
operand; the cost of every other instruction outside Group CB is a function of its first byte alone, whatever its
operand bytes and the state, and that of a CB instruction of its second byte alone. That the prefix, a row of its
own, reports the cost of the CB instruction it runs is the model's choice (log entry 11). [derived:
70_reset_and_hazards.md R311, R310, log entry 11] -/
def Obligations.OnlyConditionsChangeTheCost : Prop :=
  (∀ cc : Cond,
    (∃ m, ∀ (s : State) (e8 : Byte), instrCycles (.jrCc cc e8) s = some (if s.cond cc then m + 1 else m)) ∧
    (∃ m, ∀ (s : State) (a16 : Word), instrCycles (.jpCc cc a16) s = some (if s.cond cc then m + 1 else m)) ∧
    (∃ m, ∀ (s : State) (a16 : Word), instrCycles (.callCc cc a16) s = some (if s.cond cc then m + 3 else m)) ∧
    ∃ m, ∀ s : State, instrCycles (.retCc cc) s = some (if s.cond cc then m + 3 else m)) ∧
  (∃ cost : Byte → Option Nat, ∀ (i : Instr) (op : Byte) (rest : List Byte) (s : State),
    encode i = op :: rest → op ≠ 0xCB#8 → (∀ cc e8, i ≠ .jrCc cc e8) → (∀ cc a16, i ≠ .jpCc cc a16) →
    (∀ cc a16, i ≠ .callCc cc a16) → (∀ cc, i ≠ .retCc cc) → instrCycles i s = cost op) ∧
  ∃ cbCost : Byte → Option Nat,
    (∀ (i : Instr) (cb : Byte) (s : State), encode i = [0xCB#8, cb] → instrCycles i s = cbCost cb) ∧
    ∀ s : State, instrCycles .prefixCB s = cbCost (read8 s s.pc)

/-- NOP, STOP and HALT complete in every state and leave it as it is (PC is already past them); one byte and 1 M-cycle
each. STOP and HALT so are the spec's decisions D10 and D9; HALT_MODE = placeholder is the model's choice (log entry
2). [derived: 41_group0.md (NOP, STOP), 42_group1.md (HALT), 92_eei_decisions.md D9, D10] -/
def Obligations.NopStopHaltOnlyAdvance : Prop :=
  FetchedFrom .nop [0x00#8] ∧ FetchedFrom .stop [0x10#8] ∧ FetchedFrom .halt [0x76#8] ∧
  ∀ s : State,
    exec .nop s = .next s ∧ exec .stop s = .next s ∧ exec .halt s = .next s ∧
    instrCycles .nop s = some 1 ∧ instrCycles .stop s = some 1 ∧ instrCycles .halt s = some 1

/-- Each completes in every state; the destination register, or the byte at HL, holds the source register, the byte at
HL or the immediate as they were before; nothing else differs; encodings and costs as the rules give them. [stated:
R128, R129, R150, R151, R152] -/
def Obligations.EightBitLoads : Prop :=
  (∀ dst src, FetchedFrom (.ldR8R8 dst src) [0b01#2 ++ r8Code dst ++ r8Code src]) ∧
  (∀ dst, FetchedFrom (.ldR8Hl dst) [0b01#2 ++ r8Code dst ++ 0b110#3]) ∧
  (∀ src, FetchedFrom (.ldHlR8 src) [0b01110#5 ++ r8Code src]) ∧
  (∀ dst n8, FetchedFrom (.ldR8N8 dst n8) [0b00#2 ++ r8Code dst ++ 0b110#3, n8]) ∧
  (∀ n8, FetchedFrom (.ldHlN8 n8) [0x36#8, n8]) ∧
  ∀ (s : State) (dst src : R8) (n8 : Byte),
    (∃ t, exec (.ldR8R8 dst src) s = .next t ∧ t.getR8 dst = s.getR8 src ∧ SameExcept [.r8 dst] s t) ∧
    instrCycles (.ldR8R8 dst src) s = some 1 ∧
    (∃ t, exec (.ldR8Hl dst) s = .next t ∧ t.getR8 dst = read8 s s.hl ∧ SameExcept [.r8 dst] s t) ∧
    instrCycles (.ldR8Hl dst) s = some 2 ∧
    (∃ t, exec (.ldHlR8 src) s = .next t ∧ read8 t s.hl = s.getR8 src ∧ SameExcept [.bytes s.hl 1] s t) ∧
    instrCycles (.ldHlR8 src) s = some 2 ∧
    (∃ t, exec (.ldR8N8 dst n8) s = .next t ∧ t.getR8 dst = n8 ∧ SameExcept [.r8 dst] s t) ∧
    instrCycles (.ldR8N8 dst n8) s = some 2 ∧
    (∃ t, exec (.ldHlN8 n8) s = .next t ∧ read8 t s.hl = n8 ∧ SameExcept [.bytes s.hl 1] s t) ∧
    instrCycles (.ldHlN8 n8) s = some 3

/-- Each completes in every state; the byte at the address pair holds A, or A holds that byte; [HL+] and [HL-] then move
HL by one modulo 65536; nothing else differs; encodings and costs as the rules give them. [stated: R112, R113, R114,
R115, R116, R117, R118, R119] -/
def Obligations.IndirectAccumulatorLoads : Prop :=
  FetchedFrom .ldBcA [0x02#8] ∧ FetchedFrom .ldDeA [0x12#8] ∧ FetchedFrom .ldHliA [0x22#8] ∧
  FetchedFrom .ldHldA [0x32#8] ∧ FetchedFrom .ldABc [0x0A#8] ∧ FetchedFrom .ldADe [0x1A#8] ∧
  FetchedFrom .ldAHli [0x2A#8] ∧ FetchedFrom .ldAHld [0x3A#8] ∧
  ∀ s : State,
    (∃ t, exec .ldBcA s = .next t ∧ read8 t s.bc = s.a ∧ SameExcept [.bytes s.bc 1] s t) ∧
    (∃ t, exec .ldDeA s = .next t ∧ read8 t s.de = s.a ∧ SameExcept [.bytes s.de 1] s t) ∧
    (∃ t, exec .ldHliA s = .next t ∧ read8 t s.hl = s.a ∧ t.hl.toNat = (s.hl.toNat + 1) % 65536 ∧
      SameExcept (.bytes s.hl 1 :: hlParts) s t) ∧
    (∃ t, exec .ldHldA s = .next t ∧ read8 t s.hl = s.a ∧ t.hl.toNat = (s.hl.toNat + 65535) % 65536 ∧
      SameExcept (.bytes s.hl 1 :: hlParts) s t) ∧
    (∃ t, exec .ldABc s = .next t ∧ t.a = read8 s s.bc ∧ SameExcept [.r8 .a] s t) ∧
    (∃ t, exec .ldADe s = .next t ∧ t.a = read8 s s.de ∧ SameExcept [.r8 .a] s t) ∧
    (∃ t, exec .ldAHli s = .next t ∧ t.a = read8 s s.hl ∧ t.hl.toNat = (s.hl.toNat + 1) % 65536 ∧
      SameExcept (.r8 .a :: hlParts) s t) ∧
    (∃ t, exec .ldAHld s = .next t ∧ t.a = read8 s s.hl ∧ t.hl.toNat = (s.hl.toNat + 65535) % 65536 ∧
      SameExcept (.r8 .a :: hlParts) s t) ∧
    ∀ i ∈ [Instr.ldBcA, .ldDeA, .ldHliA, .ldHldA, .ldABc, .ldADe, .ldAHli, .ldAHld], instrCycles i s = some 2

/-- Each completes in every state; the 16-bit register holds the immediate, its high byte in B, D or H and its low byte
in C, E or L, or SP holds HL; nothing else differs; encodings and costs as the rules give them. In every state the
pairs AF, BC, DE, HL are their two registers, the first one high, as R11 says; a write of a pair puts v[15:8] in the
first and v[7:0] in the second (for AF with bits 3:0 cleared, R15 and the spec's decision D6), is read back whole
(for AF when those bits are 0), and changes nothing else. [derived: 10_state.md R11, R15, 41_group0.md R111,
44_group3_data.md R200, 92_eei_decisions.md D6] -/
def Obligations.SixteenBitLoads : Prop :=
  (∀ rr n16, FetchedFrom (.ldR16N16 rr n16) [0b00#2 ++ r16Code rr ++ 0b0001#4, loByte n16, hiByte n16]) ∧
  FetchedFrom .ldSpHl [0xF9#8] ∧
  ∀ (s : State) (rr : R16) (n16 : Word),
    let holds := fun (w : Word) (hi lo : Byte) => hi.toNat = w.toNat / 256 ∧ lo.toNat = w.toNat % 256
    holds s.af s.a s.f ∧ holds s.bc s.b s.c ∧ holds s.de s.d s.e ∧ holds s.hl s.h s.l ∧
    (holds n16 (s.setBc n16).b (s.setBc n16).c ∧ (s.setBc n16).bc = n16 ∧ SameExcept [.r8 .b, .r8 .c] s (s.setBc n16)) ∧
    (holds n16 (s.setDe n16).d (s.setDe n16).e ∧ (s.setDe n16).de = n16 ∧ SameExcept [.r8 .d, .r8 .e] s (s.setDe n16)) ∧
    (holds n16 (s.setHl n16).h (s.setHl n16).l ∧ (s.setHl n16).hl = n16 ∧ SameExcept hlParts s (s.setHl n16)) ∧
    ((s.setAf n16).a.toNat = n16.toNat / 256 ∧ (s.setAf n16).f.toNat = n16.toNat % 256 / 16 * 16 ∧
      (n16.toNat % 16 = 0 → (s.setAf n16).af = n16) ∧ SameExcept [.r8 .a, .f] s (s.setAf n16)) ∧
    (∃ t, exec (.ldR16N16 rr n16) s = .next t ∧ t.getR16 rr = n16 ∧ SameExcept (r16Parts rr) s t) ∧
    (∃ t, exec (.ldR16N16 .bc n16) s = .next t ∧ holds n16 t.b t.c) ∧
    (∃ t, exec (.ldR16N16 .de n16) s = .next t ∧ holds n16 t.d t.e) ∧
    (∃ t, exec (.ldR16N16 .hl n16) s = .next t ∧ holds n16 t.h t.l) ∧
    (∃ t, exec (.ldR16N16 .sp n16) s = .next t ∧ t.sp = n16) ∧
    instrCycles (.ldR16N16 rr n16) s = some 3 ∧
    (∃ t, exec .ldSpHl s = .next t ∧ t.sp = s.hl ∧ SameExcept [.sp] s t) ∧ instrCycles .ldSpHl s = some 2

/-- At every address but 0xFFFF it completes: the low byte of SP is at a16, the high byte at a16 + 1, nothing else
differs; at 0xFFFF it raises OutOfBounds (the spec's decision D3); 3 bytes, 5 M-cycles. [derived: 41_group0.md (LD
[a16],SP), 92_eei_decisions.md D3] -/
def Obligations.StoringTheStackPointer : Prop :=
  (∀ a16, FetchedFrom (.ldA16Sp a16) [0x08#8, loByte a16, hiByte a16]) ∧
  ∀ (s : State) (a16 : Word),
    (a16 ≠ 0xFFFF#16 → ∃ t, exec (.ldA16Sp a16) s = .next t ∧ read8 t a16 = loByte s.sp ∧
      read8 t (a16 + 1#16) = hiByte s.sp ∧ SameExcept [.bytes a16 2] s t) ∧
    (a16 = 0xFFFF#16 → exec (.ldA16Sp a16) s = .fault .outOfBounds) ∧
    instrCycles (.ldA16Sp a16) s = some 5

/-- Each completes in every state; the address is 0xFF00 plus C or the immediate, taken unsigned (the spec's decision
D22); the byte there holds A, or A holds it; nothing else differs; encodings and costs as the rules give them.
[derived: 44_group3_data.md section 3, 92_eei_decisions.md D22] -/
def Obligations.HighPageLoads : Prop :=
  FetchedFrom .ldhCA [0xE2#8] ∧ FetchedFrom .ldhAC [0xF2#8] ∧
  (∀ a8, FetchedFrom (.ldhA8A a8) [0xE0#8, a8] ∧ FetchedFrom (.ldhAA8 a8) [0xF0#8, a8]) ∧
  (∀ offset : Byte, (highPage offset).toNat = 0xFF00 + offset.toNat) ∧
  ∀ (s : State) (a8 : Byte),
    (∃ t, exec .ldhCA s = .next t ∧ read8 t (highPage s.c) = s.a ∧ SameExcept [.bytes (highPage s.c) 1] s t) ∧
    instrCycles .ldhCA s = some 2 ∧
    (∃ t, exec (.ldhA8A a8) s = .next t ∧ read8 t (highPage a8) = s.a ∧ SameExcept [.bytes (highPage a8) 1] s t) ∧
    instrCycles (.ldhA8A a8) s = some 3 ∧
    (∃ t, exec .ldhAC s = .next t ∧ t.a = read8 s (highPage s.c) ∧ SameExcept [.r8 .a] s t) ∧
    instrCycles .ldhAC s = some 2 ∧
    (∃ t, exec (.ldhAA8 a8) s = .next t ∧ t.a = read8 s (highPage a8) ∧ SameExcept [.r8 .a] s t) ∧
    instrCycles (.ldhAA8 a8) s = some 3

/-- Each completes in every state and for every address, 0xFFFF included; the byte at the address holds A, or A holds
it; nothing else differs; 3 bytes, 4 M-cycles. [stated: R194, R197] -/
def Obligations.AbsoluteAccumulatorLoads : Prop :=
  (∀ a16, FetchedFrom (.ldA16A a16) [0xEA#8, loByte a16, hiByte a16] ∧
    FetchedFrom (.ldAA16 a16) [0xFA#8, loByte a16, hiByte a16]) ∧
  ∀ (s : State) (a16 : Word),
    (∃ t, exec (.ldA16A a16) s = .next t ∧ read8 t a16 = s.a ∧ SameExcept [.bytes a16 1] s t) ∧
    instrCycles (.ldA16A a16) s = some 4 ∧
    (∃ t, exec (.ldAA16 a16) s = .next t ∧ t.a = read8 s a16 ∧ SameExcept [.r8 .a] s t) ∧
    instrCycles (.ldAA16 a16) s = some 4

/-- PUSH with SP >= 2 completes: SP is 2 lower and the pair lies there, low byte first; with SP < 2 it raises
StackOverflow. POP with SP <= 0xFFFD completes: the pair holds the word at SP and SP is 2 higher; with SP = 0xFFFE
it raises StackOverflow, with SP = 0xFFFF OutOfBounds. Nothing else differs; encodings and costs as the rules give
them. That a pop at SP = 0xFFFC succeeds, as R39 has it and against R303 and R274, is the model's choice (log entry
15). [derived: 44_group3_data.md R188, R190, R191, 20_memory.md R39, log entry 15] -/
def Obligations.PushAndPopPairs : Prop :=
  (∀ rr, FetchedFrom (.popR16 rr) [0b11#2 ++ r16StkCode rr ++ 0b0001#4] ∧
    FetchedFrom (.pushR16 rr) [0b11#2 ++ r16StkCode rr ++ 0b0101#4]) ∧
  FetchedFrom .pushAf [0xF5#8] ∧
  ∀ (s : State) (rr : R16Stk),
    (2#16 ≤ s.sp →
      (∃ t, exec (.pushR16 rr) s = .next t ∧ Pushed (s.getR16Stk rr) [] s t) ∧
      ∃ t, exec .pushAf s = .next t ∧ read8 t (s.sp - 2#16) = s.f ∧ read8 t (s.sp - 1#16) = s.a ∧
        Pushed s.af [] s t) ∧
    (s.sp < 2#16 → exec (.pushR16 rr) s = .fault .stackOverflow ∧ exec .pushAf s = .fault .stackOverflow) ∧
    (s.sp ≤ 0xFFFD#16 → ∃ t, exec (.popR16 rr) s = .next t ∧ t.getR16Stk rr = stackTop s ∧
      Popped (r16StkParts rr) s t) ∧
    (s.sp = 0xFFFE#16 → exec (.popR16 rr) s = .fault .stackOverflow) ∧
    (s.sp = 0xFFFF#16 → exec (.popR16 rr) s = .fault .outOfBounds) ∧
    instrCycles (.popR16 rr) s = some 3 ∧ instrCycles (.pushR16 rr) s = some 4 ∧ instrCycles .pushAf s = some 4

/-- With SP <= 0xFFFD it completes: A holds the byte at SP + 1, F the byte at SP with bits 3:0 cleared (the spec's
decision D6), SP is 2 higher, nothing else differs; with SP = 0xFFFE it raises StackOverflow, with SP = 0xFFFF
OutOfBounds; 1 byte, 3 M-cycles. That a pop at SP = 0xFFFC succeeds, as R39 has it and against R303 and R274, is the
model's choice (log entry 15). [derived: 44_group3_data.md section 2, 92_eei_decisions.md D6, log entry 15] -/
def Obligations.PopAfMasksTheLowNibble : Prop :=
  FetchedFrom .popAf [0xF1#8] ∧
  ∀ s : State,
    (s.sp ≤ 0xFFFD#16 → ∃ t, exec .popAf s = .next t ∧ t.a = read8 s (s.sp + 1#16) ∧
      t.f.toNat = (read8 s s.sp).toNat / 16 * 16 ∧ Popped [.r8 .a, .f] s t) ∧
    (s.sp = 0xFFFE#16 → exec .popAf s = .fault .stackOverflow) ∧
    (s.sp = 0xFFFF#16 → exec .popAf s = .fault .outOfBounds) ∧
    instrCycles .popAf s = some 3

/-- Each completes in every state; the 16-bit register moves by one modulo 65536, SP too (the spec's decision D4);
nothing else differs, F included; encodings and costs as the rules give them. [derived: 41_group0.md (INC r16, DEC
r16), 92_eei_decisions.md D4] -/
def Obligations.SixteenBitIncrementAndDecrement : Prop :=
  (∀ rr, FetchedFrom (.incR16 rr) [0b00#2 ++ r16Code rr ++ 0b0011#4] ∧
    FetchedFrom (.decR16 rr) [0b00#2 ++ r16Code rr ++ 0b1011#4]) ∧
  ∀ (s : State) (rr : R16),
    (∃ t, exec (.incR16 rr) s = .next t ∧ (t.getR16 rr).toNat = ((s.getR16 rr).toNat + 1) % 65536 ∧
      SameExcept (r16Parts rr) s t) ∧
    (∃ t, exec (.decR16 rr) s = .next t ∧ (t.getR16 rr).toNat = ((s.getR16 rr).toNat + 65535) % 65536 ∧
      SameExcept (r16Parts rr) s t) ∧
    instrCycles (.incR16 rr) s = some 2 ∧ instrCycles (.decR16 rr) s = some 2

/-- It completes in every state; HL holds the 16-bit sum, Z is unchanged, N is 0 (the spec's own resolution C2 of
90_conflicts.md, log entry 3), H and C are the carries out of bits 11 and 15, nothing else differs; 1 byte, 2
M-cycles. [derived: 41_group0.md R123, 40_arith_helpers.md R96, 90_conflicts.md C2] -/
def Obligations.AddToHl : Prop :=
  (∀ rr, FetchedFrom (.addHlR16 rr) [0b00#2 ++ r16Code rr ++ 0b1001#4]) ∧
  ∀ (s : State) (rr : R16),
    (∃ t, exec (.addHlR16 rr) s = .next t ∧ t.hl.toNat = (s.hl.toNat + (s.getR16 rr).toNat) % 65536 ∧
      t.f = packFlags s.flagZ false (decide (0x0FFF < s.hl.toNat % 4096 + (s.getR16 rr).toNat % 4096))
        (decide (65535 < s.hl.toNat + (s.getR16 rr).toNat)) ∧ SameExcept (.f :: hlParts) s t) ∧
    instrCycles (.addHlR16 rr) s = some 2

/-- Each completes in every state; SP, or HL, holds SP plus the sign-extended byte modulo 65536 (it never raises
StackOverflow, the spec's decision D4); Z and N are 0, H and C are the carries out of bits 3 and 7 of the unsigned
sum of SP's low byte and e8; nothing else differs; encodings and costs as the rules give them. [derived:
40_arith_helpers.md section 2 (addsp), 44_group3_data.md section 4, 92_eei_decisions.md D4] -/
def Obligations.StackPointerPlusDisplacement : Prop :=
  (∀ e8, FetchedFrom (.addSpE8 e8) [0xE8#8, e8] ∧ FetchedFrom (.ldHlSpE8 e8) [0xF8#8, e8]) ∧
  ∀ (s : State) (e8 : Byte),
    let sum := ((s.sp.toNat : Int) + e8.toInt) % 65536
    let flags := packFlags false false (decide (0xF < s.sp.toNat % 16 + e8.toNat % 16))
      (decide (0xFF < s.sp.toNat % 256 + e8.toNat))
    (∃ t, exec (.addSpE8 e8) s = .next t ∧ (t.sp.toNat : Int) = sum ∧ t.f = flags ∧ SameExcept [.sp, .f] s t) ∧
    (∃ t, exec (.ldHlSpE8 e8) s = .next t ∧ (t.hl.toNat : Int) = sum ∧ t.f = flags ∧
      SameExcept (.f :: hlParts) s t) ∧
    instrCycles (.addSpE8 e8) s = some 4 ∧ instrCycles (.ldHlSpE8 e8) s = some 3

/-- Each completes in every state; the register or the byte at HL holds the result of inc8 or dec8, Z, N and H are the
helper's, C is unchanged, nothing else differs; encodings and costs as the rules give them. [stated: R124, R125,
R126, R127] -/
def Obligations.EightBitIncrementAndDecrement : Prop :=
  (∀ r, FetchedFrom (.incR8 r) [0b00#2 ++ r8Code r ++ 0b100#3] ∧
    FetchedFrom (.decR8 r) [0b00#2 ++ r8Code r ++ 0b101#3]) ∧
  FetchedFrom .incHl [0x34#8] ∧ FetchedFrom .decHl [0x35#8] ∧
  ∀ (s : State) (r : R8),
    (∃ t, exec (.incR8 r) s = .next t ∧ SteppedR8 r (inc8 (s.getR8 r)) s t) ∧ instrCycles (.incR8 r) s = some 1 ∧
    (∃ t, exec (.decR8 r) s = .next t ∧ SteppedR8 r (dec8 (s.getR8 r)) s t) ∧ instrCycles (.decR8 r) s = some 1 ∧
    (∃ t, exec .incHl s = .next t ∧ SteppedHl (inc8 (read8 s s.hl)) s t) ∧ instrCycles .incHl s = some 3 ∧
    (∃ t, exec .decHl s = .next t ∧ SteppedHl (dec8 (read8 s s.hl)) s t) ∧ instrCycles .decHl s = some 3

/-- Each completes in every state; A holds the helper's result on the old A, the operand and, for ADC and SBC, the old
carry; F holds the helper's four flags; nothing else differs; encodings and costs as the rules give them. [stated:
R160, R162, R164, R166] -/
def Obligations.ArithmeticWithARegister : Prop :=
  (∀ r, FetchedFrom (.addAR8 r) [0b10000#5 ++ r8Code r]) ∧
  (∀ r, FetchedFrom (.adcAR8 r) [0b10001#5 ++ r8Code r]) ∧
  (∀ r, FetchedFrom (.subR8 r) [0b10010#5 ++ r8Code r]) ∧
  (∀ r, FetchedFrom (.sbcAR8 r) [0b10011#5 ++ r8Code r]) ∧
  ∀ (s : State) (r : R8),
    (∃ t, exec (.addAR8 r) s = .next t ∧ Accumulated (add8 s.a (s.getR8 r)) s t) ∧ instrCycles (.addAR8 r) s = some 1 ∧
    (∃ t, exec (.adcAR8 r) s = .next t ∧ Accumulated (adc8 s.a (s.getR8 r) s.flagC) s t) ∧ instrCycles (.adcAR8 r) s = some 1 ∧
    (∃ t, exec (.subR8 r) s = .next t ∧ Accumulated (sub8 s.a (s.getR8 r)) s t) ∧ instrCycles (.subR8 r) s = some 1 ∧
    (∃ t, exec (.sbcAR8 r) s = .next t ∧ Accumulated (sbc8 s.a (s.getR8 r) s.flagC) s t) ∧ instrCycles (.sbcAR8 r) s = some 1

/-- Each completes in every state; A holds the helper's result on the old A, the operand and, for ADC and SBC, the old
carry; F holds the helper's four flags; nothing else differs; encodings and costs as the rules give them. [stated:
R161, R163, R165, R167] -/
def Obligations.ArithmeticWithTheByteAtHl : Prop :=
  FetchedFrom .addAHl [0b10000110#8] ∧
  FetchedFrom .adcAHl [0b10001110#8] ∧
  FetchedFrom .subHl [0b10010110#8] ∧
  FetchedFrom .sbcAHl [0b10011110#8] ∧
  ∀ s : State,
    (∃ t, exec .addAHl s = .next t ∧ Accumulated (add8 s.a (read8 s s.hl)) s t) ∧ instrCycles .addAHl s = some 2 ∧
    (∃ t, exec .adcAHl s = .next t ∧ Accumulated (adc8 s.a (read8 s s.hl) s.flagC) s t) ∧ instrCycles .adcAHl s = some 2 ∧
    (∃ t, exec .subHl s = .next t ∧ Accumulated (sub8 s.a (read8 s s.hl)) s t) ∧ instrCycles .subHl s = some 2 ∧
    (∃ t, exec .sbcAHl s = .next t ∧ Accumulated (sbc8 s.a (read8 s s.hl) s.flagC) s t) ∧ instrCycles .sbcAHl s = some 2

/-- Each completes in every state; A holds the helper's result on the old A, the operand and, for ADC and SBC, the old
carry; F holds the helper's four flags; nothing else differs; encodings and costs as the rules give them. [stated:
R180, R181, R182, R183] -/
def Obligations.ArithmeticWithAnImmediate : Prop :=
  (∀ n8, FetchedFrom (.addAN8 n8) [0b11000110#8, n8]) ∧
  (∀ n8, FetchedFrom (.adcAN8 n8) [0b11001110#8, n8]) ∧
  (∀ n8, FetchedFrom (.subN8 n8) [0b11010110#8, n8]) ∧
  (∀ n8, FetchedFrom (.sbcAN8 n8) [0b11011110#8, n8]) ∧
  ∀ (s : State) (n8 : Byte),
    (∃ t, exec (.addAN8 n8) s = .next t ∧ Accumulated (add8 s.a n8) s t) ∧ instrCycles (.addAN8 n8) s = some 2 ∧
    (∃ t, exec (.adcAN8 n8) s = .next t ∧ Accumulated (adc8 s.a n8 s.flagC) s t) ∧ instrCycles (.adcAN8 n8) s = some 2 ∧
    (∃ t, exec (.subN8 n8) s = .next t ∧ Accumulated (sub8 s.a n8) s t) ∧ instrCycles (.subN8 n8) s = some 2 ∧
    (∃ t, exec (.sbcAN8 n8) s = .next t ∧ Accumulated (sbc8 s.a n8 s.flagC) s t) ∧ instrCycles (.sbcAN8 n8) s = some 2

/-- Each completes in every state; A holds the bitwise and, exclusive or, or or of the old A and the operand; Z says
whether it is 0, N and C are 0, H is 1 for AND and 0 for XOR and OR (the spec's decision D15); nothing else differs;
encodings and costs as the rules give them. [derived: 43_group2.md (AND, XOR, OR), 44_group3_data.md section 1,
40_arith_helpers.md section 2, 92_eei_decisions.md D15, 90_conflicts.md C3] -/
def Obligations.LogicOnTheAccumulator : Prop :=
  (∀ a b : Byte, and8 a b = ⟨a &&& b, a &&& b == 0#8, false, true, false⟩ ∧
    xor8 a b = ⟨a ^^^ b, a ^^^ b == 0#8, false, false, false⟩ ∧
    or8 a b = ⟨a ||| b, a ||| b == 0#8, false, false, false⟩) ∧
  (∀ r, FetchedFrom (.andR8 r) [0b10100#5 ++ r8Code r]) ∧
  (∀ r, FetchedFrom (.xorR8 r) [0b10101#5 ++ r8Code r]) ∧
  (∀ r, FetchedFrom (.orR8 r) [0b10110#5 ++ r8Code r]) ∧
  FetchedFrom .andHl [0b10100110#8] ∧
  FetchedFrom .xorHl [0b10101110#8] ∧
  FetchedFrom .orHl [0b10110110#8] ∧
  (∀ n8, FetchedFrom (.andN8 n8) [0b11100110#8, n8]) ∧
  (∀ n8, FetchedFrom (.xorN8 n8) [0b11101110#8, n8]) ∧
  (∀ n8, FetchedFrom (.orN8 n8) [0b11110110#8, n8]) ∧
  ∀ (s : State) (r : R8) (n8 : Byte),
    (∃ t, exec (.andR8 r) s = .next t ∧ Accumulated (and8 s.a (s.getR8 r)) s t) ∧ instrCycles (.andR8 r) s = some 1 ∧
    (∃ t, exec (.xorR8 r) s = .next t ∧ Accumulated (xor8 s.a (s.getR8 r)) s t) ∧ instrCycles (.xorR8 r) s = some 1 ∧
    (∃ t, exec (.orR8 r) s = .next t ∧ Accumulated (or8 s.a (s.getR8 r)) s t) ∧ instrCycles (.orR8 r) s = some 1 ∧
    (∃ t, exec .andHl s = .next t ∧ Accumulated (and8 s.a (read8 s s.hl)) s t) ∧ instrCycles .andHl s = some 2 ∧
    (∃ t, exec .xorHl s = .next t ∧ Accumulated (xor8 s.a (read8 s s.hl)) s t) ∧ instrCycles .xorHl s = some 2 ∧
    (∃ t, exec .orHl s = .next t ∧ Accumulated (or8 s.a (read8 s s.hl)) s t) ∧ instrCycles .orHl s = some 2 ∧
    (∃ t, exec (.andN8 n8) s = .next t ∧ Accumulated (and8 s.a n8) s t) ∧ instrCycles (.andN8 n8) s = some 2 ∧
    (∃ t, exec (.xorN8 n8) s = .next t ∧ Accumulated (xor8 s.a n8) s t) ∧ instrCycles (.xorN8 n8) s = some 2 ∧
    (∃ t, exec (.orN8 n8) s = .next t ∧ Accumulated (or8 s.a n8) s t) ∧ instrCycles (.orN8 n8) s = some 2

/-- Each completes in every state: Z says whether A equals the operand, N is 1, H whether the operand's low nibble
exceeds A's, C whether A is below the operand, unsigned; nothing but F differs, A included; encodings and costs as
the rules give them. [stated: R99, R174, R175, R187] -/
def Obligations.CompareWritesFlagsOnly : Prop :=
  (∀ r, FetchedFrom (.cpR8 r) [0b10111#5 ++ r8Code r]) ∧ FetchedFrom .cpHl [0xBE#8] ∧
  (∀ n8, FetchedFrom (.cpN8 n8) [0xFE#8, n8]) ∧
  ∀ (s : State) (r : R8) (n8 : Byte),
    let flags := fun x : Byte => packFlags (decide (s.a = x)) true (decide (s.a.toNat % 16 < x.toNat % 16)) (decide (s.a < x))
    (∃ t, exec (.cpR8 r) s = .next t ∧ t.f = flags (s.getR8 r) ∧ SameExcept [.f] s t) ∧
    instrCycles (.cpR8 r) s = some 1 ∧
    (∃ t, exec .cpHl s = .next t ∧ t.f = flags (read8 s s.hl) ∧ SameExcept [.f] s t) ∧ instrCycles .cpHl s = some 2 ∧
    (∃ t, exec (.cpN8 n8) s = .next t ∧ t.f = flags n8 ∧ SameExcept [.f] s t) ∧ instrCycles (.cpN8 n8) s = some 2

/-- Each completes in every state: the rotates leave Z, N, H at 0 and the bit shifted out in C; DAA writes the result
and flags of the spec's daa, N as before; CPL complements A, sets N and H and keeps Z and C; SCF and CCF set and
toggle C, clear N and H and keep Z; nothing but A and F differs; 1 byte, 1 M-cycle each. These semantics are the
spec's under its decision D15. [derived: 41_group0.md (RLCA to CCF), 40_arith_helpers.md section 2,
92_eei_decisions.md D15] -/
def Obligations.OneByteAccumulatorOperations : Prop :=
  FetchedFrom .rlca [0x07#8] ∧ FetchedFrom .rrca [0x0F#8] ∧ FetchedFrom .rla [0x17#8] ∧ FetchedFrom .rra [0x1F#8] ∧
  FetchedFrom .daa [0x27#8] ∧ FetchedFrom .cpl [0x2F#8] ∧ FetchedFrom .scf [0x37#8] ∧ FetchedFrom .ccf [0x3F#8] ∧
  ∀ s : State,
    (∃ t, exec .rlca s = .next t ∧ t.a = (rlc s.a).r ∧ t.f = packFlags false false false (s.a.getLsbD 7) ∧
      SameExcept [.r8 .a, .f] s t) ∧
    (∃ t, exec .rrca s = .next t ∧ t.a = (rrc s.a).r ∧ t.f = packFlags false false false (s.a.getLsbD 0) ∧
      SameExcept [.r8 .a, .f] s t) ∧
    (∃ t, exec .rla s = .next t ∧ t.a = (rl s.a s.flagC).r ∧ t.f = packFlags false false false (s.a.getLsbD 7) ∧
      SameExcept [.r8 .a, .f] s t) ∧
    (∃ t, exec .rra s = .next t ∧ t.a = (rr s.a s.flagC).r ∧ t.f = packFlags false false false (s.a.getLsbD 0) ∧
      SameExcept [.r8 .a, .f] s t) ∧
    (∃ t, exec .daa s = .next t ∧ Accumulated (daa s.a s.flagN s.flagH s.flagC) s t ∧ t.flagN = s.flagN ∧
      t.flagH = false ∧ (s.flagC = true → t.flagC = true)) ∧
    (∃ t, exec .cpl s = .next t ∧ t.a = ~~~s.a ∧ t.f = packFlags s.flagZ true true s.flagC ∧
      SameExcept [.r8 .a, .f] s t) ∧
    (∃ t, exec .scf s = .next t ∧ t.f = packFlags s.flagZ false false true ∧ SameExcept [.f] s t) ∧
    (∃ t, exec .ccf s = .next t ∧ t.f = packFlags s.flagZ false false (!s.flagC) ∧ SameExcept [.f] s t) ∧
    ∀ i ∈ [Instr.rlca, .rrca, .rla, .rra, .daa, .cpl, .scf, .ccf], instrCycles i s = some 1

/-- Each completes in every state: PC is the address, or HL itself, or, when the condition is false, stays past the
instruction; nothing else differs; encodings and costs as the rules give them. [stated: R213, R214, R215] -/
def Obligations.AbsoluteJumps : Prop :=
  (∀ cc a16, FetchedFrom (.jpCc cc a16) [0b110#3 ++ condCode cc ++ 0b010#3, loByte a16, hiByte a16]) ∧
  (∀ a16, FetchedFrom (.jp a16) [0xC3#8, loByte a16, hiByte a16]) ∧ FetchedFrom .jpHl [0xE9#8] ∧
  ∀ (s : State) (cc : Cond) (a16 : Word),
    (∃ t, exec (.jpCc cc a16) s = .next t ∧ t.pc = (if s.cond cc then a16 else s.pc) ∧ SameExcept [.pc] s t) ∧
    instrCycles (.jpCc cc a16) s = some (if s.cond cc then 4 else 3) ∧
    (∃ t, exec (.jp a16) s = .next t ∧ t.pc = a16 ∧ SameExcept [.pc] s t) ∧ instrCycles (.jp a16) s = some 4 ∧
    (∃ t, exec .jpHl s = .next t ∧ t.pc = s.hl ∧ SameExcept [.pc] s t) ∧ instrCycles .jpHl s = some 1

/-- Each completes in every state: PC moves by the signed byte from the address after the instruction, modulo 65536 (the
spec's decision D5), or, when the condition is false, stays there; nothing else differs; encodings and costs as the
rules give them. [derived: 41_group0.md (JR), 92_eei_decisions.md D5] -/
def Obligations.RelativeJumps : Prop :=
  (∀ e8, FetchedFrom (.jr e8) [0x18#8, e8]) ∧
  (∀ cc e8, FetchedFrom (.jrCc cc e8) [0b001#3 ++ condCode cc ++ 0b000#3, e8]) ∧
  ∀ (s : State) (cc : Cond) (e8 : Byte),
    let target := ((s.pc.toNat : Int) + e8.toInt) % 65536
    (∃ t, exec (.jr e8) s = .next t ∧ (t.pc.toNat : Int) = target ∧ SameExcept [.pc] s t) ∧
    instrCycles (.jr e8) s = some 3 ∧
    (∃ t, exec (.jrCc cc e8) s = .next t ∧ (t.pc.toNat : Int) = (if s.cond cc then target else s.pc.toNat) ∧
      SameExcept [.pc] s t) ∧
    instrCycles (.jrCc cc e8) s = some (if s.cond cc then 3 else 2)

/-- A call that is taken, with SP >= 2, completes: the address after it is pushed and PC is the target; with SP < 2 it
raises StackOverflow. A return that is taken, with SP <= 0xFFFD, completes: PC is the word at SP and SP is 2 higher;
with SP = 0xFFFE it raises StackOverflow, with SP = 0xFFFF OutOfBounds. One not taken completes and changes nothing.
Nothing else differs; encodings and costs as the rules give them. That a pop at SP = 0xFFFC succeeds, as R39 has it
and against R303 and R274, is the model's choice (log entry 15). [derived: 45_group3_control.md R210, R211, R216,
R217, 20_memory.md R39, log entry 15] -/
def Obligations.CallsAndReturns : Prop :=
  (∀ cc, FetchedFrom (.retCc cc) [0b110#3 ++ condCode cc ++ 0b000#3]) ∧ FetchedFrom .ret [0xC9#8] ∧
  (∀ cc a16, FetchedFrom (.callCc cc a16) [0b110#3 ++ condCode cc ++ 0b100#3, loByte a16, hiByte a16]) ∧
  (∀ a16, FetchedFrom (.call a16) [0xCD#8, loByte a16, hiByte a16]) ∧
  ∀ (s : State) (cc : Cond) (a16 : Word),
    (2#16 ≤ s.sp →
      (∃ t, exec (.call a16) s = .next t ∧ t.pc = a16 ∧ Pushed s.pc [.pc] s t) ∧
      (s.cond cc = true → ∃ t, exec (.callCc cc a16) s = .next t ∧ t.pc = a16 ∧ Pushed s.pc [.pc] s t)) ∧
    (s.sp < 2#16 → exec (.call a16) s = .fault .stackOverflow ∧
      (s.cond cc = true → exec (.callCc cc a16) s = .fault .stackOverflow)) ∧
    (s.sp ≤ 0xFFFD#16 →
      (∃ t, exec .ret s = .next t ∧ t.pc = stackTop s ∧ Popped [.pc] s t) ∧
      (s.cond cc = true → ∃ t, exec (.retCc cc) s = .next t ∧ t.pc = stackTop s ∧ Popped [.pc] s t)) ∧
    (s.sp = 0xFFFE#16 → exec .ret s = .fault .stackOverflow ∧
      (s.cond cc = true → exec (.retCc cc) s = .fault .stackOverflow)) ∧
    (s.sp = 0xFFFF#16 → exec .ret s = .fault .outOfBounds ∧
      (s.cond cc = true → exec (.retCc cc) s = .fault .outOfBounds)) ∧
    (s.cond cc = false → exec (.callCc cc a16) s = .next s ∧ exec (.retCc cc) s = .next s) ∧
    instrCycles .ret s = some 4 ∧ instrCycles (.retCc cc) s = some (if s.cond cc then 5 else 2) ∧
    instrCycles (.call a16) s = some 6 ∧ instrCycles (.callCc cc a16) s = some (if s.cond cc then 6 else 3)

/-- RST with SP >= 2 completes: the address after it is pushed and PC is 8 times its index (the spec's decision D21);
with SP < 2 it raises StackOverflow. RETI with SP <= 0xFFFD completes: PC is the word at SP, SP is 2 higher and ime
is 1 (the spec's decision D8), ime_pend as before; with SP = 0xFFFE it raises StackOverflow, with SP = 0xFFFF
OutOfBounds. Nothing else differs; encodings and costs as the rules give them. That a pop at SP = 0xFFFC succeeds,
as R39 has it and against R303 and R274, is the model's choice (log entry 15). [derived: 45_group3_control.md (RST,
RETI), 92_eei_decisions.md D8, D21, log entry 15] -/
def Obligations.RestartAndReturnWithEnable : Prop :=
  (∀ t, FetchedFrom (.rst t) [0b11#2 ++ t ++ 0b111#3]) ∧ FetchedFrom .reti [0xD9#8] ∧
  ∀ (s : State) (t : BitVec 3),
    (2#16 ≤ s.sp → ∃ u, exec (.rst t) s = .next u ∧ u.pc.toNat = 8 * t.toNat ∧ Pushed s.pc [.pc] s u) ∧
    (s.sp < 2#16 → exec (.rst t) s = .fault .stackOverflow) ∧
    (s.sp ≤ 0xFFFD#16 → ∃ u, exec .reti s = .next u ∧ u.pc = stackTop s ∧ u.ime = true ∧ Popped [.pc, .ime] s u) ∧
    (s.sp = 0xFFFE#16 → exec .reti s = .fault .stackOverflow) ∧
    (s.sp = 0xFFFF#16 → exec .reti s = .fault .outOfBounds) ∧
    instrCycles (.rst t) s = some 4 ∧ instrCycles .reti s = some 4

/-- Each completes in every state; the register or the byte at HL holds the rotated or shifted value, Z says whether it
is 0, N and H are 0, C is the bit shifted out (0 for SWAP); nothing else differs; 2 bytes, 2 M-cycles on a register
and 4 on [HL]. The flags are the spec's under its decision D15. [derived: 46_group_cb.md section 1,
40_arith_helpers.md section 2, 92_eei_decisions.md D15] -/
def Obligations.CbRotatesAndShifts : Prop :=
  (∀ r, FetchedFrom (.rlcR8 r) [0xCB#8, 0b00000#5 ++ r8Code r]) ∧ FetchedFrom .rlcHl [0xCB#8, 0b00000110#8] ∧
  (∀ r, FetchedFrom (.rrcR8 r) [0xCB#8, 0b00001#5 ++ r8Code r]) ∧ FetchedFrom .rrcHl [0xCB#8, 0b00001110#8] ∧
  (∀ r, FetchedFrom (.rlR8 r) [0xCB#8, 0b00010#5 ++ r8Code r]) ∧ FetchedFrom .rlHl [0xCB#8, 0b00010110#8] ∧
  (∀ r, FetchedFrom (.rrR8 r) [0xCB#8, 0b00011#5 ++ r8Code r]) ∧ FetchedFrom .rrHl [0xCB#8, 0b00011110#8] ∧
  (∀ r, FetchedFrom (.slaR8 r) [0xCB#8, 0b00100#5 ++ r8Code r]) ∧ FetchedFrom .slaHl [0xCB#8, 0b00100110#8] ∧
  (∀ r, FetchedFrom (.sraR8 r) [0xCB#8, 0b00101#5 ++ r8Code r]) ∧ FetchedFrom .sraHl [0xCB#8, 0b00101110#8] ∧
  (∀ r, FetchedFrom (.swapR8 r) [0xCB#8, 0b00110#5 ++ r8Code r]) ∧ FetchedFrom .swapHl [0xCB#8, 0b00110110#8] ∧
  (∀ r, FetchedFrom (.srlR8 r) [0xCB#8, 0b00111#5 ++ r8Code r]) ∧ FetchedFrom .srlHl [0xCB#8, 0b00111110#8] ∧
  ∀ (s : State) (r : R8),
    (∃ t, exec (.rlcR8 r) s = .next t ∧ ShiftedR8 r (rlc (s.getR8 r)) s t) ∧
    (∃ t, exec .rlcHl s = .next t ∧ ShiftedHl (rlc (read8 s s.hl)) s t) ∧
    (∃ t, exec (.rrcR8 r) s = .next t ∧ ShiftedR8 r (rrc (s.getR8 r)) s t) ∧
    (∃ t, exec .rrcHl s = .next t ∧ ShiftedHl (rrc (read8 s s.hl)) s t) ∧
    (∃ t, exec (.rlR8 r) s = .next t ∧ ShiftedR8 r (rl (s.getR8 r) s.flagC) s t) ∧
    (∃ t, exec .rlHl s = .next t ∧ ShiftedHl (rl (read8 s s.hl) s.flagC) s t) ∧
    (∃ t, exec (.rrR8 r) s = .next t ∧ ShiftedR8 r (rr (s.getR8 r) s.flagC) s t) ∧
    (∃ t, exec .rrHl s = .next t ∧ ShiftedHl (rr (read8 s s.hl) s.flagC) s t) ∧
    (∃ t, exec (.slaR8 r) s = .next t ∧ ShiftedR8 r (sla (s.getR8 r)) s t) ∧
    (∃ t, exec .slaHl s = .next t ∧ ShiftedHl (sla (read8 s s.hl)) s t) ∧
    (∃ t, exec (.sraR8 r) s = .next t ∧ ShiftedR8 r (sra (s.getR8 r)) s t) ∧
    (∃ t, exec .sraHl s = .next t ∧ ShiftedHl (sra (read8 s s.hl)) s t) ∧
    (∃ t, exec (.swapR8 r) s = .next t ∧ ShiftedR8 r (swap (s.getR8 r)) s t) ∧
    (∃ t, exec .swapHl s = .next t ∧ ShiftedHl (swap (read8 s s.hl)) s t) ∧
    (∃ t, exec (.srlR8 r) s = .next t ∧ ShiftedR8 r (srl (s.getR8 r)) s t) ∧
    (∃ t, exec .srlHl s = .next t ∧ ShiftedHl (srl (read8 s s.hl)) s t) ∧
    (∀ i ∈ [Instr.rlcR8 r, .rrcR8 r, .rlR8 r, .rrR8 r, .slaR8 r, .sraR8 r, .swapR8 r, .srlR8 r], instrCycles i s = some 2) ∧
    ∀ i ∈ [Instr.rlcHl, .rrcHl, .rlHl, .rrHl, .slaHl, .sraHl, .swapHl, .srlHl], instrCycles i s = some 4

/-- Each completes in every state. BIT writes Z = complement of the bit, N = 0, H = 1, keeps C and writes nothing else.
RES and SET clear and set that bit of the register or of the byte at HL, leave its other bits, and write no flag and
nothing else. 2 bytes; 2 M-cycles on a register, 3 for BIT and 4 for RES and SET on [HL]. [stated: R256, R257, R258,
R259, R260, R261] -/
def Obligations.CbSingleBits : Prop :=
  (∀ b r, FetchedFrom (.bitR8 b r) [0xCB#8, 0b01#2 ++ b ++ r8Code r] ∧
    FetchedFrom (.resR8 b r) [0xCB#8, 0b10#2 ++ b ++ r8Code r] ∧
    FetchedFrom (.setR8 b r) [0xCB#8, 0b11#2 ++ b ++ r8Code r]) ∧
  (∀ b, FetchedFrom (.bitHl b) [0xCB#8, 0b01#2 ++ b ++ 0b110#3] ∧
    FetchedFrom (.resHl b) [0xCB#8, 0b10#2 ++ b ++ 0b110#3] ∧
    FetchedFrom (.setHl b) [0xCB#8, 0b11#2 ++ b ++ 0b110#3]) ∧
  ∀ (s : State) (b : BitVec 3) (r : R8),
    let cleared := fun v w : Byte => ∀ i, i < 8 → w.getLsbD i = if i = b.toNat then false else v.getLsbD i
    let raised := fun v w : Byte => ∀ i, i < 8 → w.getLsbD i = if i = b.toNat then true else v.getLsbD i
    (∃ t, exec (.bitR8 b r) s = .next t ∧
      t.f = packFlags (!(s.getR8 r).getLsbD b.toNat) false true s.flagC ∧ SameExcept [.f] s t) ∧
    (∃ t, exec (.bitHl b) s = .next t ∧
      t.f = packFlags (!(read8 s s.hl).getLsbD b.toNat) false true s.flagC ∧ SameExcept [.f] s t) ∧
    (∃ t, exec (.resR8 b r) s = .next t ∧ cleared (s.getR8 r) (t.getR8 r) ∧ SameExcept [.r8 r] s t) ∧
    (∃ t, exec (.resHl b) s = .next t ∧ cleared (read8 s s.hl) (read8 t s.hl) ∧ SameExcept [.bytes s.hl 1] s t) ∧
    (∃ t, exec (.setR8 b r) s = .next t ∧ raised (s.getR8 r) (t.getR8 r) ∧ SameExcept [.r8 r] s t) ∧
    (∃ t, exec (.setHl b) s = .next t ∧ raised (read8 s s.hl) (read8 t s.hl) ∧ SameExcept [.bytes s.hl 1] s t) ∧
    instrCycles (.bitR8 b r) s = some 2 ∧ instrCycles (.resR8 b r) s = some 2 ∧ instrCycles (.setR8 b r) s = some 2 ∧
    instrCycles (.bitHl b) s = some 3 ∧ instrCycles (.resHl b) s = some 4 ∧ instrCycles (.setHl b) s = some 4
end

