-- ==== Sys2Proof/Laws/State.lean ====
section
/-! SUPPORT. What each named update leaves in each field of the state, one lemma for each, so that no proof unfolds a
record update; and reading an operand after writing one. -/

namespace Sys2Proof.Machine

/-! ### `setA` -/

@[simp] theorem State.setA_a (s : State) (v : Byte) : (s.setA v).a = v := rfl
@[simp] theorem State.setA_f (s : State) (v : Byte) : (s.setA v).f = s.f := rfl
@[simp] theorem State.setA_b (s : State) (v : Byte) : (s.setA v).b = s.b := rfl
@[simp] theorem State.setA_c (s : State) (v : Byte) : (s.setA v).c = s.c := rfl
@[simp] theorem State.setA_d (s : State) (v : Byte) : (s.setA v).d = s.d := rfl
@[simp] theorem State.setA_e (s : State) (v : Byte) : (s.setA v).e = s.e := rfl
@[simp] theorem State.setA_h (s : State) (v : Byte) : (s.setA v).h = s.h := rfl
@[simp] theorem State.setA_l (s : State) (v : Byte) : (s.setA v).l = s.l := rfl
@[simp] theorem State.setA_pc (s : State) (v : Byte) : (s.setA v).pc = s.pc := rfl
@[simp] theorem State.setA_sp (s : State) (v : Byte) : (s.setA v).sp = s.sp := rfl
@[simp] theorem State.setA_mem (s : State) (v : Byte) : (s.setA v).mem = s.mem := rfl
@[simp] theorem State.setA_ime (s : State) (v : Byte) : (s.setA v).ime = s.ime := rfl
@[simp] theorem State.setA_imePend (s : State) (v : Byte) : (s.setA v).imePend = s.imePend := rfl

/-! ### `setF` -/

@[simp] theorem State.setF_a (s : State) (v : Byte) : (s.setF v).a = s.a := rfl
@[simp] theorem State.setF_f (s : State) (v : Byte) : (s.setF v).f = v := rfl
@[simp] theorem State.setF_b (s : State) (v : Byte) : (s.setF v).b = s.b := rfl
@[simp] theorem State.setF_c (s : State) (v : Byte) : (s.setF v).c = s.c := rfl
@[simp] theorem State.setF_d (s : State) (v : Byte) : (s.setF v).d = s.d := rfl
@[simp] theorem State.setF_e (s : State) (v : Byte) : (s.setF v).e = s.e := rfl
@[simp] theorem State.setF_h (s : State) (v : Byte) : (s.setF v).h = s.h := rfl
@[simp] theorem State.setF_l (s : State) (v : Byte) : (s.setF v).l = s.l := rfl
@[simp] theorem State.setF_pc (s : State) (v : Byte) : (s.setF v).pc = s.pc := rfl
@[simp] theorem State.setF_sp (s : State) (v : Byte) : (s.setF v).sp = s.sp := rfl
@[simp] theorem State.setF_mem (s : State) (v : Byte) : (s.setF v).mem = s.mem := rfl
@[simp] theorem State.setF_ime (s : State) (v : Byte) : (s.setF v).ime = s.ime := rfl
@[simp] theorem State.setF_imePend (s : State) (v : Byte) : (s.setF v).imePend = s.imePend := rfl

/-! ### `setPc` -/

@[simp] theorem State.setPc_a (s : State) (v : Word) : (s.setPc v).a = s.a := rfl
@[simp] theorem State.setPc_f (s : State) (v : Word) : (s.setPc v).f = s.f := rfl
@[simp] theorem State.setPc_b (s : State) (v : Word) : (s.setPc v).b = s.b := rfl
@[simp] theorem State.setPc_c (s : State) (v : Word) : (s.setPc v).c = s.c := rfl
@[simp] theorem State.setPc_d (s : State) (v : Word) : (s.setPc v).d = s.d := rfl
@[simp] theorem State.setPc_e (s : State) (v : Word) : (s.setPc v).e = s.e := rfl
@[simp] theorem State.setPc_h (s : State) (v : Word) : (s.setPc v).h = s.h := rfl
@[simp] theorem State.setPc_l (s : State) (v : Word) : (s.setPc v).l = s.l := rfl
@[simp] theorem State.setPc_pc (s : State) (v : Word) : (s.setPc v).pc = v := rfl
@[simp] theorem State.setPc_sp (s : State) (v : Word) : (s.setPc v).sp = s.sp := rfl
@[simp] theorem State.setPc_mem (s : State) (v : Word) : (s.setPc v).mem = s.mem := rfl
@[simp] theorem State.setPc_ime (s : State) (v : Word) : (s.setPc v).ime = s.ime := rfl
@[simp] theorem State.setPc_imePend (s : State) (v : Word) : (s.setPc v).imePend = s.imePend := rfl

/-! ### `setSp` -/

@[simp] theorem State.setSp_a (s : State) (v : Word) : (s.setSp v).a = s.a := rfl
@[simp] theorem State.setSp_f (s : State) (v : Word) : (s.setSp v).f = s.f := rfl
@[simp] theorem State.setSp_b (s : State) (v : Word) : (s.setSp v).b = s.b := rfl
@[simp] theorem State.setSp_c (s : State) (v : Word) : (s.setSp v).c = s.c := rfl
@[simp] theorem State.setSp_d (s : State) (v : Word) : (s.setSp v).d = s.d := rfl
@[simp] theorem State.setSp_e (s : State) (v : Word) : (s.setSp v).e = s.e := rfl
@[simp] theorem State.setSp_h (s : State) (v : Word) : (s.setSp v).h = s.h := rfl
@[simp] theorem State.setSp_l (s : State) (v : Word) : (s.setSp v).l = s.l := rfl
@[simp] theorem State.setSp_pc (s : State) (v : Word) : (s.setSp v).pc = s.pc := rfl
@[simp] theorem State.setSp_sp (s : State) (v : Word) : (s.setSp v).sp = v := rfl
@[simp] theorem State.setSp_mem (s : State) (v : Word) : (s.setSp v).mem = s.mem := rfl
@[simp] theorem State.setSp_ime (s : State) (v : Word) : (s.setSp v).ime = s.ime := rfl
@[simp] theorem State.setSp_imePend (s : State) (v : Word) : (s.setSp v).imePend = s.imePend := rfl

/-! ### `setIme` -/

@[simp] theorem State.setIme_a (s : State) (v : Bool) : (s.setIme v).a = s.a := rfl
@[simp] theorem State.setIme_f (s : State) (v : Bool) : (s.setIme v).f = s.f := rfl
@[simp] theorem State.setIme_b (s : State) (v : Bool) : (s.setIme v).b = s.b := rfl
@[simp] theorem State.setIme_c (s : State) (v : Bool) : (s.setIme v).c = s.c := rfl
@[simp] theorem State.setIme_d (s : State) (v : Bool) : (s.setIme v).d = s.d := rfl
@[simp] theorem State.setIme_e (s : State) (v : Bool) : (s.setIme v).e = s.e := rfl
@[simp] theorem State.setIme_h (s : State) (v : Bool) : (s.setIme v).h = s.h := rfl
@[simp] theorem State.setIme_l (s : State) (v : Bool) : (s.setIme v).l = s.l := rfl
@[simp] theorem State.setIme_pc (s : State) (v : Bool) : (s.setIme v).pc = s.pc := rfl
@[simp] theorem State.setIme_sp (s : State) (v : Bool) : (s.setIme v).sp = s.sp := rfl
@[simp] theorem State.setIme_mem (s : State) (v : Bool) : (s.setIme v).mem = s.mem := rfl
@[simp] theorem State.setIme_ime (s : State) (v : Bool) : (s.setIme v).ime = v := rfl
@[simp] theorem State.setIme_imePend (s : State) (v : Bool) : (s.setIme v).imePend = s.imePend := rfl

/-! ### `setImePend` -/

@[simp] theorem State.setImePend_a (s : State) (v : ImePend) : (s.setImePend v).a = s.a := rfl
@[simp] theorem State.setImePend_f (s : State) (v : ImePend) : (s.setImePend v).f = s.f := rfl
@[simp] theorem State.setImePend_b (s : State) (v : ImePend) : (s.setImePend v).b = s.b := rfl
@[simp] theorem State.setImePend_c (s : State) (v : ImePend) : (s.setImePend v).c = s.c := rfl
@[simp] theorem State.setImePend_d (s : State) (v : ImePend) : (s.setImePend v).d = s.d := rfl
@[simp] theorem State.setImePend_e (s : State) (v : ImePend) : (s.setImePend v).e = s.e := rfl
@[simp] theorem State.setImePend_h (s : State) (v : ImePend) : (s.setImePend v).h = s.h := rfl
@[simp] theorem State.setImePend_l (s : State) (v : ImePend) : (s.setImePend v).l = s.l := rfl
@[simp] theorem State.setImePend_pc (s : State) (v : ImePend) : (s.setImePend v).pc = s.pc := rfl
@[simp] theorem State.setImePend_sp (s : State) (v : ImePend) : (s.setImePend v).sp = s.sp := rfl
@[simp] theorem State.setImePend_mem (s : State) (v : ImePend) : (s.setImePend v).mem = s.mem := rfl
@[simp] theorem State.setImePend_ime (s : State) (v : ImePend) : (s.setImePend v).ime = s.ime := rfl
@[simp] theorem State.setImePend_imePend (s : State) (v : ImePend) : (s.setImePend v).imePend = v := rfl

/-! ### `setBc` -/

@[simp] theorem State.setBc_a (s : State) (v : Word) : (s.setBc v).a = s.a := rfl
@[simp] theorem State.setBc_f (s : State) (v : Word) : (s.setBc v).f = s.f := rfl
@[simp] theorem State.setBc_b (s : State) (v : Word) : (s.setBc v).b = hiByte v := rfl
@[simp] theorem State.setBc_c (s : State) (v : Word) : (s.setBc v).c = loByte v := rfl
@[simp] theorem State.setBc_d (s : State) (v : Word) : (s.setBc v).d = s.d := rfl
@[simp] theorem State.setBc_e (s : State) (v : Word) : (s.setBc v).e = s.e := rfl
@[simp] theorem State.setBc_h (s : State) (v : Word) : (s.setBc v).h = s.h := rfl
@[simp] theorem State.setBc_l (s : State) (v : Word) : (s.setBc v).l = s.l := rfl
@[simp] theorem State.setBc_pc (s : State) (v : Word) : (s.setBc v).pc = s.pc := rfl
@[simp] theorem State.setBc_sp (s : State) (v : Word) : (s.setBc v).sp = s.sp := rfl
@[simp] theorem State.setBc_mem (s : State) (v : Word) : (s.setBc v).mem = s.mem := rfl
@[simp] theorem State.setBc_ime (s : State) (v : Word) : (s.setBc v).ime = s.ime := rfl
@[simp] theorem State.setBc_imePend (s : State) (v : Word) : (s.setBc v).imePend = s.imePend := rfl

/-! ### `setDe` -/

@[simp] theorem State.setDe_a (s : State) (v : Word) : (s.setDe v).a = s.a := rfl
@[simp] theorem State.setDe_f (s : State) (v : Word) : (s.setDe v).f = s.f := rfl
@[simp] theorem State.setDe_b (s : State) (v : Word) : (s.setDe v).b = s.b := rfl
@[simp] theorem State.setDe_c (s : State) (v : Word) : (s.setDe v).c = s.c := rfl
@[simp] theorem State.setDe_d (s : State) (v : Word) : (s.setDe v).d = hiByte v := rfl
@[simp] theorem State.setDe_e (s : State) (v : Word) : (s.setDe v).e = loByte v := rfl
@[simp] theorem State.setDe_h (s : State) (v : Word) : (s.setDe v).h = s.h := rfl
@[simp] theorem State.setDe_l (s : State) (v : Word) : (s.setDe v).l = s.l := rfl
@[simp] theorem State.setDe_pc (s : State) (v : Word) : (s.setDe v).pc = s.pc := rfl
@[simp] theorem State.setDe_sp (s : State) (v : Word) : (s.setDe v).sp = s.sp := rfl
@[simp] theorem State.setDe_mem (s : State) (v : Word) : (s.setDe v).mem = s.mem := rfl
@[simp] theorem State.setDe_ime (s : State) (v : Word) : (s.setDe v).ime = s.ime := rfl
@[simp] theorem State.setDe_imePend (s : State) (v : Word) : (s.setDe v).imePend = s.imePend := rfl

/-! ### `setHl` -/

@[simp] theorem State.setHl_a (s : State) (v : Word) : (s.setHl v).a = s.a := rfl
@[simp] theorem State.setHl_f (s : State) (v : Word) : (s.setHl v).f = s.f := rfl
@[simp] theorem State.setHl_b (s : State) (v : Word) : (s.setHl v).b = s.b := rfl
@[simp] theorem State.setHl_c (s : State) (v : Word) : (s.setHl v).c = s.c := rfl
@[simp] theorem State.setHl_d (s : State) (v : Word) : (s.setHl v).d = s.d := rfl
@[simp] theorem State.setHl_e (s : State) (v : Word) : (s.setHl v).e = s.e := rfl
@[simp] theorem State.setHl_h (s : State) (v : Word) : (s.setHl v).h = hiByte v := rfl
@[simp] theorem State.setHl_l (s : State) (v : Word) : (s.setHl v).l = loByte v := rfl
@[simp] theorem State.setHl_pc (s : State) (v : Word) : (s.setHl v).pc = s.pc := rfl
@[simp] theorem State.setHl_sp (s : State) (v : Word) : (s.setHl v).sp = s.sp := rfl
@[simp] theorem State.setHl_mem (s : State) (v : Word) : (s.setHl v).mem = s.mem := rfl
@[simp] theorem State.setHl_ime (s : State) (v : Word) : (s.setHl v).ime = s.ime := rfl
@[simp] theorem State.setHl_imePend (s : State) (v : Word) : (s.setHl v).imePend = s.imePend := rfl

/-! ### `setAf` -/

@[simp] theorem State.setAf_a (s : State) (v : Word) : (s.setAf v).a = hiByte v := rfl
@[simp] theorem State.setAf_f (s : State) (v : Word) : (s.setAf v).f = loByte v &&& 0xF0#8 := rfl
@[simp] theorem State.setAf_b (s : State) (v : Word) : (s.setAf v).b = s.b := rfl
@[simp] theorem State.setAf_c (s : State) (v : Word) : (s.setAf v).c = s.c := rfl
@[simp] theorem State.setAf_d (s : State) (v : Word) : (s.setAf v).d = s.d := rfl
@[simp] theorem State.setAf_e (s : State) (v : Word) : (s.setAf v).e = s.e := rfl
@[simp] theorem State.setAf_h (s : State) (v : Word) : (s.setAf v).h = s.h := rfl
@[simp] theorem State.setAf_l (s : State) (v : Word) : (s.setAf v).l = s.l := rfl
@[simp] theorem State.setAf_pc (s : State) (v : Word) : (s.setAf v).pc = s.pc := rfl
@[simp] theorem State.setAf_sp (s : State) (v : Word) : (s.setAf v).sp = s.sp := rfl
@[simp] theorem State.setAf_mem (s : State) (v : Word) : (s.setAf v).mem = s.mem := rfl
@[simp] theorem State.setAf_ime (s : State) (v : Word) : (s.setAf v).ime = s.ime := rfl
@[simp] theorem State.setAf_imePend (s : State) (v : Word) : (s.setAf v).imePend = s.imePend := rfl

/-! ### `setFlags` -/

@[simp] theorem State.setFlags_a (s : State) (z n h c : Bool) : (s.setFlags z n h c).a = s.a := rfl
@[simp] theorem State.setFlags_f (s : State) (z n h c : Bool) : (s.setFlags z n h c).f = packFlags z n h c := rfl
@[simp] theorem State.setFlags_b (s : State) (z n h c : Bool) : (s.setFlags z n h c).b = s.b := rfl
@[simp] theorem State.setFlags_c (s : State) (z n h c : Bool) : (s.setFlags z n h c).c = s.c := rfl
@[simp] theorem State.setFlags_d (s : State) (z n h c : Bool) : (s.setFlags z n h c).d = s.d := rfl
@[simp] theorem State.setFlags_e (s : State) (z n h c : Bool) : (s.setFlags z n h c).e = s.e := rfl
@[simp] theorem State.setFlags_h (s : State) (z n h c : Bool) : (s.setFlags z n h c).h = s.h := rfl
@[simp] theorem State.setFlags_l (s : State) (z n h c : Bool) : (s.setFlags z n h c).l = s.l := rfl
@[simp] theorem State.setFlags_pc (s : State) (z n h c : Bool) : (s.setFlags z n h c).pc = s.pc := rfl
@[simp] theorem State.setFlags_sp (s : State) (z n h c : Bool) : (s.setFlags z n h c).sp = s.sp := rfl
@[simp] theorem State.setFlags_mem (s : State) (z n h c : Bool) : (s.setFlags z n h c).mem = s.mem := rfl
@[simp] theorem State.setFlags_ime (s : State) (z n h c : Bool) : (s.setFlags z n h c).ime = s.ime := rfl
@[simp] theorem State.setFlags_imePend (s : State) (z n h c : Bool) : (s.setFlags z n h c).imePend = s.imePend := rfl

/-! ### `write8` -/

@[simp] theorem write8_a (s : State) (addr : Word) (v : Byte) : (write8 s addr v).a = s.a := rfl
@[simp] theorem write8_f (s : State) (addr : Word) (v : Byte) : (write8 s addr v).f = s.f := rfl
@[simp] theorem write8_b (s : State) (addr : Word) (v : Byte) : (write8 s addr v).b = s.b := rfl
@[simp] theorem write8_c (s : State) (addr : Word) (v : Byte) : (write8 s addr v).c = s.c := rfl
@[simp] theorem write8_d (s : State) (addr : Word) (v : Byte) : (write8 s addr v).d = s.d := rfl
@[simp] theorem write8_e (s : State) (addr : Word) (v : Byte) : (write8 s addr v).e = s.e := rfl
@[simp] theorem write8_h (s : State) (addr : Word) (v : Byte) : (write8 s addr v).h = s.h := rfl
@[simp] theorem write8_l (s : State) (addr : Word) (v : Byte) : (write8 s addr v).l = s.l := rfl
@[simp] theorem write8_pc (s : State) (addr : Word) (v : Byte) : (write8 s addr v).pc = s.pc := rfl
@[simp] theorem write8_sp (s : State) (addr : Word) (v : Byte) : (write8 s addr v).sp = s.sp := rfl
@[simp] theorem write8_mem (s : State) (addr : Word) (v : Byte) : (write8 s addr v).mem = Memory.set s.mem addr.toNat v := rfl
@[simp] theorem write8_ime (s : State) (addr : Word) (v : Byte) : (write8 s addr v).ime = s.ime := rfl
@[simp] theorem write8_imePend (s : State) (addr : Word) (v : Byte) : (write8 s addr v).imePend = s.imePend := rfl

/-! ### `putR8` -/

@[simp] theorem State.putR8_f (s : State) (r : R8) (v : Byte) : (s.putR8 r v).f = s.f := by cases r <;> rfl
@[simp] theorem State.putR8_pc (s : State) (r : R8) (v : Byte) : (s.putR8 r v).pc = s.pc := by cases r <;> rfl
@[simp] theorem State.putR8_sp (s : State) (r : R8) (v : Byte) : (s.putR8 r v).sp = s.sp := by cases r <;> rfl
@[simp] theorem State.putR8_mem (s : State) (r : R8) (v : Byte) : (s.putR8 r v).mem = s.mem := by cases r <;> rfl
@[simp] theorem State.putR8_ime (s : State) (r : R8) (v : Byte) : (s.putR8 r v).ime = s.ime := by cases r <;> rfl
@[simp] theorem State.putR8_imePend (s : State) (r : R8) (v : Byte) : (s.putR8 r v).imePend = s.imePend := by cases r <;> rfl

/-- Reading a register after writing one. -/
@[simp] theorem State.getR8_putR8 (s : State) (r q : R8) (v : Byte) :
    (s.putR8 r v).getR8 q = if q = r then v else s.getR8 q := by
  cases r <;> cases q <;> rfl

/-! ### `putR16` -/

@[simp] theorem State.putR16_a (s : State) (rr : R16) (v : Word) : (s.putR16 rr v).a = s.a := by
  cases rr <;> rfl
@[simp] theorem State.putR16_f (s : State) (rr : R16) (v : Word) : (s.putR16 rr v).f = s.f := by
  cases rr <;> rfl
@[simp] theorem State.putR16_pc (s : State) (rr : R16) (v : Word) : (s.putR16 rr v).pc = s.pc := by
  cases rr <;> rfl
@[simp] theorem State.putR16_mem (s : State) (rr : R16) (v : Word) : (s.putR16 rr v).mem = s.mem := by
  cases rr <;> rfl
@[simp] theorem State.putR16_ime (s : State) (rr : R16) (v : Word) : (s.putR16 rr v).ime = s.ime := by
  cases rr <;> rfl
@[simp] theorem State.putR16_imePend (s : State) (rr : R16) (v : Word) : (s.putR16 rr v).imePend = s.imePend := by
  cases rr <;> rfl

/-! ### `putR16Stk` -/

@[simp] theorem State.putR16Stk_a (s : State) (rr : R16Stk) (v : Word) : (s.putR16Stk rr v).a = s.a := by
  cases rr <;> rfl
@[simp] theorem State.putR16Stk_f (s : State) (rr : R16Stk) (v : Word) : (s.putR16Stk rr v).f = s.f := by
  cases rr <;> rfl
@[simp] theorem State.putR16Stk_pc (s : State) (rr : R16Stk) (v : Word) : (s.putR16Stk rr v).pc = s.pc := by
  cases rr <;> rfl
@[simp] theorem State.putR16Stk_mem (s : State) (rr : R16Stk) (v : Word) : (s.putR16Stk rr v).mem = s.mem := by
  cases rr <;> rfl
@[simp] theorem State.putR16Stk_ime (s : State) (rr : R16Stk) (v : Word) : (s.putR16Stk rr v).ime = s.ime := by
  cases rr <;> rfl
@[simp] theorem State.putR16Stk_imePend (s : State) (rr : R16Stk) (v : Word) : (s.putR16Stk rr v).imePend = s.imePend := by
  cases rr <;> rfl
@[simp] theorem State.putR16Stk_sp (s : State) (rr : R16Stk) (v : Word) : (s.putR16Stk rr v).sp = s.sp := by
  cases rr <;> rfl

/-! ### Registers an update does not name -/

@[simp] theorem State.setF_getR8 (s : State) (v : Byte) (q : R8) : (s.setF v).getR8 q = s.getR8 q := by cases q <;> rfl
@[simp] theorem State.setPc_getR8 (s : State) (v : Word) (q : R8) : (s.setPc v).getR8 q = s.getR8 q := by cases q <;> rfl
@[simp] theorem State.setSp_getR8 (s : State) (v : Word) (q : R8) : (s.setSp v).getR8 q = s.getR8 q := by cases q <;> rfl
@[simp] theorem State.setIme_getR8 (s : State) (v : Bool) (q : R8) : (s.setIme v).getR8 q = s.getR8 q := by cases q <;> rfl
@[simp] theorem State.setImePend_getR8 (s : State) (v : ImePend) (q : R8) : (s.setImePend v).getR8 q = s.getR8 q := by cases q <;> rfl
@[simp] theorem State.setFlags_getR8 (s : State) (z n h c : Bool) (q : R8) : (s.setFlags z n h c).getR8 q = s.getR8 q := by cases q <;> rfl
@[simp] theorem write8_getR8 (s : State) (addr : Word) (v : Byte) (q : R8) : (write8 s addr v).getR8 q = s.getR8 q := by
  cases q <;> rfl

/-! ### Words and their bytes -/

/-- A word's value is 256 times its high byte plus its low byte. -/
theorem leWord_toNat (lo hi : Byte) : (leWord lo hi).toNat = 256 * hi.toNat + lo.toNat := by
  have h : (leWord lo hi).toNat = hi.toNat <<< 8 ||| lo.toNat := BitVec.toNat_append hi lo
  rw [h, Nat.shiftLeft_eq, Nat.mul_comm, ← Nat.two_pow_add_eq_or_of_lt lo.isLt]

theorem loByte_toNat (w : Word) : (loByte w).toNat = w.toNat % 256 := by
  simp [loByte, BitVec.extractLsb'_toNat]

theorem hiByte_toNat (w : Word) : (hiByte w).toNat = w.toNat / 256 := by
  have := w.isLt
  simp [hiByte, BitVec.extractLsb'_toNat, Nat.shiftRight_eq_div_pow]
  omega

/-- The low byte of `hi : lo`. -/
@[simp] theorem loByte_leWord (lo hi : Byte) : loByte (leWord lo hi) = lo := by
  apply BitVec.eq_of_toNat_eq
  have := lo.isLt
  rw [loByte_toNat, leWord_toNat]
  omega

/-- The high byte of `hi : lo`. -/
@[simp] theorem hiByte_leWord (lo hi : Byte) : hiByte (leWord lo hi) = hi := by
  apply BitVec.eq_of_toNat_eq
  have := lo.isLt
  rw [hiByte_toNat, leWord_toNat]
  omega

/-- A word is its two bytes. -/
@[simp] theorem leWord_loByte_hiByte (w : Word) : leWord (loByte w) (hiByte w) = w := by
  apply BitVec.eq_of_toNat_eq
  rw [leWord_toNat, loByte_toNat, hiByte_toNat]
  omega

/-- A pair reads back what was written to it (R11). -/
@[simp] theorem State.bc_setBc (s : State) (v : Word) : (s.setBc v).bc = v := leWord_loByte_hiByte v
@[simp] theorem State.de_setDe (s : State) (v : Word) : (s.setDe v).de = v := leWord_loByte_hiByte v
@[simp] theorem State.hl_setHl (s : State) (v : Word) : (s.setHl v).hl = v := leWord_loByte_hiByte v

/-- A 16-bit operand reads back what was written to it. -/
@[simp] theorem State.getR16_putR16 (s : State) (rr : R16) (v : Word) : (s.putR16 rr v).getR16 rr = v := by
  cases rr <;> simp [State.putR16, State.getR16]

/-- A stack pair reads back what was written to it. -/
@[simp] theorem State.getR16Stk_putR16Stk (s : State) (rr : R16Stk) (v : Word) : (s.putR16Stk rr v).getR16Stk rr = v := by
  cases rr <;> simp [State.putR16Stk, State.getR16Stk]

/-! ### The flag byte (R14, R15) -/

/-- F as a helper packs it has its low nibble clear. -/
@[simp] theorem packFlags_low : ∀ z n h c : Bool, packFlags z n h c &&& 0x0F#8 = 0#8 := by decide

theorem packFlags_bit7 : ∀ z n h c : Bool, (packFlags z n h c).getLsbD 7 = z := by decide
theorem packFlags_bit6 : ∀ z n h c : Bool, (packFlags z n h c).getLsbD 6 = n := by decide
theorem packFlags_bit5 : ∀ z n h c : Bool, (packFlags z n h c).getLsbD 5 = h := by decide
theorem packFlags_bit4 : ∀ z n h c : Bool, (packFlags z n h c).getLsbD 4 = c := by decide

@[simp] theorem State.flagZ_setFlags (s : State) (z n h c : Bool) : (s.setFlags z n h c).flagZ = z :=
  packFlags_bit7 z n h c
@[simp] theorem State.flagN_setFlags (s : State) (z n h c : Bool) : (s.setFlags z n h c).flagN = n :=
  packFlags_bit6 z n h c
@[simp] theorem State.flagH_setFlags (s : State) (z n h c : Bool) : (s.setFlags z n h c).flagH = h :=
  packFlags_bit5 z n h c
@[simp] theorem State.flagC_setFlags (s : State) (z n h c : Bool) : (s.setFlags z n h c).flagC = c :=
  packFlags_bit4 z n h c

end Sys2Proof.Machine
end

