-- ==== Sys2Proof/Laws/Memory.lean ====
section
/-! SUPPORT. The laws of the byte array: reading after writing, the canonical form kept by every memory operation, and equal
readings mean equal memories (20_memory.md rules R31 to R33). -/

namespace Sys2Proof.Machine

/-! ### Reading after writing -/

theorem Memory.get_erase (m : Memory) (addr q : Nat) :
    Memory.get (Memory.erase m addr) q = if q = addr then blankByte else Memory.get m q := by
  induction m with
  | nil => simp [Memory.erase, Memory.get]
  | cons cell m ih =>
    obtain ⟨k, v⟩ := cell
    simp only [Memory.erase, List.filter_cons] at ih ⊢
    by_cases hk : k = addr
    · subst hk
      simp only [bne_self_eq_false, Bool.false_eq_true, ↓reduceIte, ih, Memory.get]
      by_cases hq : q = k
      · simp [hq]
      · simp [hq, Ne.symm hq]
    · simp only [bne_iff_ne, ne_eq, hk, not_false_eq_true, ↓reduceIte, Memory.get, ih]
      by_cases hq : k = q
      · subst hq; simp [hk]
      · simp [hq]

theorem Memory.get_insertCell (m : Memory) (addr : Nat) (v : Byte) (q : Nat)
    (fresh : ∀ cell ∈ m, cell.1 ≠ addr) :
    Memory.get (Memory.insertCell m addr v) q = if q = addr then v else Memory.get m q := by
  induction m with
  | nil => simp [Memory.insertCell, Memory.get, eq_comm]
  | cons cell m ih =>
    obtain ⟨k, x⟩ := cell
    have hk : k ≠ addr := fresh (k, x) (by simp)
    have ih := ih fun c hc => fresh c (by simp [hc])
    simp only [Memory.insertCell]
    split
    · simp only [Memory.get, ih]
      by_cases hq : k = q
      · subst hq; simp [hk]
      · simp [hq]
    · simp only [Memory.get]
      by_cases hq : addr = q
      · simp [hq]
      · simp [hq, Ne.symm hq]

theorem Memory.erase_fresh (m : Memory) (addr : Nat) : ∀ cell ∈ Memory.erase m addr, cell.1 ≠ addr := by
  simp [Memory.erase]

/-- Reading one cell after writing one (R32, R33). -/
@[simp] theorem Memory.get_set (m : Memory) (addr : Nat) (v : Byte) (q : Nat) :
    Memory.get (Memory.set m addr v) q = if q = addr then v else Memory.get m q := by
  unfold Memory.set
  split
  · next h => rw [Memory.get_erase, h]
  · rw [Memory.get_insertCell _ _ _ _ (Memory.erase_fresh m addr), Memory.get_erase]
    by_cases hq : q = addr <;> simp [hq]

/-- Reading one byte after writing one (R31 to R33). -/
@[simp] theorem read8_write8 (s : State) (addr q : Word) (v : Byte) :
    read8 (write8 s addr v) q = if q = addr then v else read8 s q := by
  simp [read8, BitVec.toNat_inj]

/-! ### The canonical form -/

theorem Memory.wfFrom_mono {low low' : Nat} (m : Memory) (h : low' ≤ low) (hm : Memory.wfFrom low m = true) :
    Memory.wfFrom low' m = true := by
  cases m with
  | nil => rfl
  | cons cell m =>
    simp only [Memory.wfFrom, Bool.and_eq_true, decide_eq_true_eq] at hm ⊢
    exact ⟨⟨⟨h.trans hm.1.1.1, hm.1.1.2⟩, hm.1.2⟩, hm.2⟩

theorem Memory.wfFrom_erase {low : Nat} (m : Memory) (addr : Nat) (hm : Memory.wfFrom low m = true) :
    Memory.wfFrom low (Memory.erase m addr) = true := by
  induction m generalizing low with
  | nil => rfl
  | cons cell m ih =>
    simp only [Memory.wfFrom, Bool.and_eq_true, decide_eq_true_eq] at hm
    simp only [Memory.erase, List.filter_cons]
    split
    · simp only [Memory.wfFrom, Bool.and_eq_true, decide_eq_true_eq]
      exact ⟨hm.1, ih hm.2⟩
    · exact Memory.wfFrom_mono _ (by omega) (ih hm.2)

theorem Memory.wfFrom_insertCell {low : Nat} (m : Memory) (addr : Nat) (v : Byte) (hlow : low ≤ addr)
    (haddr : addr < Config.memSize) (hv : v ≠ blankByte) (fresh : ∀ cell ∈ m, cell.1 ≠ addr)
    (hm : Memory.wfFrom low m = true) : Memory.wfFrom low (Memory.insertCell m addr v) = true := by
  induction m generalizing low with
  | nil => simp [Memory.insertCell, Memory.wfFrom, hlow, haddr, hv]
  | cons cell m ih =>
    obtain ⟨k, x⟩ := cell
    have hk : k ≠ addr := fresh (k, x) (by simp)
    simp only [Memory.wfFrom, Bool.and_eq_true, decide_eq_true_eq, bne_iff_ne] at hm
    simp only [Memory.insertCell]
    split
    · simp only [Memory.wfFrom, Bool.and_eq_true, decide_eq_true_eq, bne_iff_ne]
      exact ⟨hm.1, ih (by omega) (fun c hc => fresh c (by simp [hc])) hm.2⟩
    · simp only [Memory.wfFrom, Bool.and_eq_true, decide_eq_true_eq, bne_iff_ne]
      exact ⟨⟨⟨hlow, haddr⟩, hv⟩, ⟨⟨by omega, hm.1.1.2⟩, hm.1.2⟩, hm.2⟩

/-- Writing a cell keeps the canonical form. -/
theorem Memory.wf_set (m : Memory) (addr : Nat) (v : Byte) (haddr : addr < Config.memSize)
    (hm : Memory.wf m = true) : Memory.wf (Memory.set m addr v) = true := by
  unfold Memory.set
  split
  · exact Memory.wfFrom_erase m addr hm
  · next hv =>
    exact Memory.wfFrom_insertCell _ _ _ (Nat.zero_le _) haddr hv (Memory.erase_fresh m addr)
      (Memory.wfFrom_erase m addr hm)

/-- `MemWrite(addr, 1, v)` keeps the canonical form. -/
theorem write8_wf (s : State) (addr : Word) (v : Byte) (h : Memory.wf s.mem = true) :
    Memory.wf (write8 s addr v).mem = true :=
  Memory.wf_set _ _ _ addr.isLt h

/-- Storing bytes keeps the canonical form. -/
theorem storeBytes_wf (bytes : List Byte) (m : Memory) (addr : Nat) (h : Memory.wf m = true) :
    Memory.wf (storeBytes m addr bytes) = true := by
  induction bytes generalizing m addr with
  | nil => exact h
  | cons v rest ih =>
    simp only [storeBytes]
    split
    · next ha => exact ih _ _ (Memory.wf_set m addr v ha h)
    · exact ih _ _ h

/-- Reading after storing bytes: inside the window the stored byte, elsewhere what was there. -/
theorem get_storeBytes (bytes : List Byte) (m : Memory) (addr q : Nat) :
    Memory.get (storeBytes m addr bytes) q =
      if addr ≤ q ∧ q < addr + bytes.length ∧ q < Config.memSize then bytes.getD (q - addr) 0#8
      else Memory.get m q := by
  induction bytes generalizing m addr with
  | nil => simp [storeBytes]; omega
  | cons v rest ih =>
    rw [storeBytes, ih]
    by_cases hq : q = addr
    · subst hq
      split_ifs <;> simp_all
    · have key : Memory.get (if addr < Config.memSize then Memory.set m addr v else m) q = Memory.get m q := by
        split <;> simp [hq]
      rw [key]
      by_cases hin : addr + 1 ≤ q ∧ q < addr + 1 + rest.length ∧ q < Config.memSize
      · rw [if_pos hin, if_pos ⟨by omega, by simp; omega, hin.2.2⟩]
        obtain ⟨j, hj⟩ : ∃ j, q - addr = j + 1 := ⟨q - addr - 1, by omega⟩
        rw [hj, List.getD_cons_succ]
        congr 1
        omega
      · rw [if_neg hin, if_neg (by simp; omega)]

/-- Byte `k` of what was stored at `addr`. -/
theorem get_storeBytes_inside (bytes : List Byte) (m : Memory) (addr k : Nat) (hk : k < bytes.length)
    (hm : addr + k < Config.memSize) : Memory.get (storeBytes m addr bytes) (addr + k) = bytes.getD k 0#8 := by
  rw [get_storeBytes, if_pos ⟨by omega, by omega, hm⟩]
  congr 1
  omega

/-- Outside the window nothing was stored. -/
theorem get_storeBytes_outside (bytes : List Byte) (m : Memory) (addr q : Nat)
    (hq : q < addr ∨ addr + bytes.length ≤ q) : Memory.get (storeBytes m addr bytes) q = Memory.get m q := by
  rw [get_storeBytes, if_neg (by omega)]

/-- The capacity of the window (R49). -/
theorem imageCapacity_eq : imageCapacity = 65280 := rfl

/-- What `load_image` answers for an image that fits, and for one that does not (R6, R49, R277). -/
theorem loadImage_fits (bytes : List Byte) (s : State) (h : bytes.length ≤ 65280) :
    loadImage bytes s = .next { s with mem := storeBytes s.mem 256 bytes, pc := 0x0100#16 } :=
  if_neg (Nat.not_lt.mpr h)

theorem loadImage_long (bytes : List Byte) (s : State) (h : 65280 < bytes.length) :
    loadImage bytes s = .fault .capacityExceeded := if_pos h

/-- Below the least listed address a memory reads blank. -/
theorem Memory.get_of_lt {low : Nat} (m : Memory) (hm : Memory.wfFrom low m = true) (q : Nat) (hq : q < low) :
    Memory.get m q = blankByte := by
  induction m generalizing low with
  | nil => rfl
  | cons cell m ih =>
    simp only [Memory.wfFrom, Bool.and_eq_true, decide_eq_true_eq] at hm
    rw [Memory.get, if_neg (by omega)]
    exact ih hm.2 (by omega)

/-- Two canonical memories that read alike at every address are the same list. -/
theorem Memory.eq_of_get {low : Nat} (m m' : Memory) (hm : Memory.wfFrom low m = true)
    (hm' : Memory.wfFrom low m' = true) (h : ∀ q, Memory.get m q = Memory.get m' q) : m = m' := by
  induction m generalizing low m' with
  | nil =>
    cases m' with
    | nil => rfl
    | cons cell m' =>
      simp only [Memory.wfFrom, Bool.and_eq_true, decide_eq_true_eq, bne_iff_ne] at hm'
      exact absurd (h cell.1) (by simp [Memory.get, Ne.symm hm'.1.2])
  | cons cell m ih =>
    obtain ⟨k, v⟩ := cell
    cases m' with
    | nil =>
      simp only [Memory.wfFrom, Bool.and_eq_true, decide_eq_true_eq, bne_iff_ne] at hm
      exact absurd (h k) (by simp [Memory.get, hm.1.2])
    | cons cell' m' =>
      obtain ⟨k', v'⟩ := cell'
      simp only [Memory.wfFrom, Bool.and_eq_true, decide_eq_true_eq, bne_iff_ne] at hm hm'
      have hkk : k = k' := by
        rcases Nat.lt_trichotomy k k' with hlt | heq | hgt
        · have := h k
          rw [Memory.get, if_pos rfl, Memory.get, if_neg (by omega),
            Memory.get_of_lt m' hm'.2 k (by omega)] at this
          exact absurd this hm.1.2
        · exact heq
        · have := h k'
          rw [Memory.get, if_neg (by omega), Memory.get_of_lt m hm.2 k' (by omega), Memory.get, if_pos rfl] at this
          exact absurd this.symm hm'.1.2
      subst hkk
      have hv : v = v' := by simpa [Memory.get] using h k
      subst hv
      congr 1
      refine ih m' hm.2 hm'.2 fun q => ?_
      rcases Nat.lt_or_ge k q with hq | hq
      · simpa [Memory.get, Nat.ne_of_lt hq] using h q
      · rw [Memory.get_of_lt m hm.2 q (by omega), Memory.get_of_lt m' hm'.2 q (by omega)]

end Sys2Proof.Machine
end

