-- ==== Sys2Proof/Laws/Ops.lean ====
section
/-! SUPPORT. One lemma for each shared operation that says everything it can do, so that no proof unfolds it: the memory
primitives (20_memory.md rules R34 to R39), fetching, delivering a fault, returns and calls, the hook. -/

namespace Sys2Proof.Machine

/-! ### Delivering a fault (R271) -/

@[simp] theorem andThen_ok {α : Type} (v : α) (k : α → Result) : andThen (.ok v) k = k v := rfl
@[simp] theorem andThen_error {α : Type} (fault : Fault) (k : α → Result) : andThen (.error fault) k = .fault fault := rfl

/-! ### The end of a step (R282) -/

@[simp] theorem finishStep_next (t : State) : finishStep (.next t) = .next (imeHook t) := rfl
@[simp] theorem finishStep_fault (fault : Fault) : finishStep (.fault fault) = .fault fault := rfl
@[simp] theorem finishStep_refused (refusal : Refusal) : finishStep (.refused refusal) = .refused refusal := rfl

/-- A step ends in a next state only where the instruction did, and the hook ran on that. -/
theorem finishStep_eq_next {r : Result} {u : State} (h : finishStep r = .next u) :
    ∃ t, r = .next t ∧ u = imeHook t := by
  cases r with
  | next t => exact ⟨t, rfl, by simpa [eq_comm] using h⟩
  | fault fault => simp at h
  | refused refusal => simp at h

theorem imeHook_none (s : State) (h : s.imePend = .none) : imeHook s = s := by
  simp [imeHook, h]
theorem imeHook_armed1 (s : State) (h : s.imePend = .armed1) : imeHook s = s.setImePend .armed0 := by
  simp [imeHook, h]
theorem imeHook_armed0 (s : State) (h : s.imePend = .armed0) : imeHook s = (s.setIme true).setImePend .none := by
  simp [imeHook, h]

@[simp] theorem imeHook_f (s : State) : (imeHook s).f = s.f := by unfold imeHook; split <;> rfl
@[simp] theorem imeHook_pc (s : State) : (imeHook s).pc = s.pc := by unfold imeHook; split <;> rfl
@[simp] theorem imeHook_sp (s : State) : (imeHook s).sp = s.sp := by unfold imeHook; split <;> rfl
@[simp] theorem imeHook_mem (s : State) : (imeHook s).mem = s.mem := by unfold imeHook; split <;> rfl
@[simp] theorem imeHook_getR8 (s : State) (r : R8) : (imeHook s).getR8 r = s.getR8 r := by
  unfold imeHook; split <;> simp

/-- After the hook no enable is freshly armed. -/
theorem imeHook_ne_armed1 (s : State) : (imeHook s).imePend ≠ .armed1 := by
  unfold imeHook
  split
  · simp
  · simp
  · next h => simp [h]

/-! ### Words in memory (R34, R35) -/

theorem read16_ok (s : State) {addr : Word} (h : addr ≠ 0xFFFF#16) :
    read16 s addr = .ok (leWord (read8 s addr) (read8 s (addr + 1#16))) := if_neg h

@[simp] theorem read16_top (s : State) : read16 s 0xFFFF#16 = .error .outOfBounds := rfl

theorem write16_ok (s : State) {addr : Word} (v : Word) (h : addr ≠ 0xFFFF#16) :
    write16 s addr v = .ok (write8 (write8 s addr (loByte v)) (addr + 1#16) (hiByte v)) := if_neg h

@[simp] theorem write16_top (s : State) (v : Word) : write16 s 0xFFFF#16 v = .error .outOfBounds := rfl

/-! ### Fetching (R36, R37, R61) -/

theorem fetch8_ok (s : State) (h : s.pc ≠ 0xFFFF#16) : fetch8 s = .ok (read8 s s.pc, s.setPc (s.pc + 1#16)) :=
  if_neg h

theorem fetch8_top (s : State) (h : s.pc = 0xFFFF#16) : fetch8 s = .error .counterOverflow := if_pos h

theorem fetch16_ok (s : State) (h : s.pc < 0xFFFE#16) :
    fetch16 s = .ok (leWord (read8 s s.pc) (read8 s (s.pc + 1#16)), s.setPc (s.pc + 2#16)) := by
  have h1 : s.pc ≠ 0xFFFF#16 := by rintro e; simp [e] at h
  have h2 : s.pc + 1#16 ≠ 0xFFFF#16 := by bv_omega
  have h3 : s.pc + 1#16 + 1#16 = s.pc + 2#16 := by bv_omega
  simp only [fetch16, fetch8_ok s h1, fetch8_ok (s.setPc (s.pc + 1#16)) (by simpa using h2), State.setPc_pc, h3]
  rfl

theorem fetch16_top (s : State) (h : 0xFFFE#16 ≤ s.pc) : fetch16 s = .error .counterOverflow := by
  by_cases h1 : s.pc = 0xFFFF#16
  · simp only [fetch16, fetch8_top s h1]; rfl
  · have h2 : s.pc + 1#16 = 0xFFFF#16 := by bv_omega
    simp only [fetch16, fetch8_ok s h1, fetch8_top (s.setPc (s.pc + 1#16)) (by simpa using h2)]
    rfl

/-- Fetching an instruction, by how many operand bytes its first byte asks for. -/
theorem fetchInstr_top (s : State) (h : s.pc = 0xFFFF#16) : fetchInstr s = .error .counterOverflow := by
  simp only [fetchInstr, fetch8_top s h]; rfl

theorem fetchInstr_zero (s : State) (h : s.pc ≠ 0xFFFF#16) (hn : operandBytes (read8 s s.pc) = 0) :
    fetchInstr s = .ok (decodeFirst (read8 s s.pc) 0#8 0#16, s.setPc (s.pc + 1#16)) := by
  simp only [fetchInstr, fetch8_ok s h, hn]

theorem fetchInstr_one (s : State) (h : s.pc < 0xFFFE#16) (hn : operandBytes (read8 s s.pc) = 1) :
    fetchInstr s = .ok (decodeFirst (read8 s s.pc) (read8 s (s.pc + 1#16)) 0#16, s.setPc (s.pc + 2#16)) := by
  have h1 : s.pc ≠ 0xFFFF#16 := by rintro e; simp [e] at h
  have h2 : s.pc + 1#16 ≠ 0xFFFF#16 := by bv_omega
  have h3 : s.pc + 1#16 + 1#16 = s.pc + 2#16 := by bv_omega
  simp only [fetchInstr, fetch8_ok s h1, fetch8_ok (s.setPc (s.pc + 1#16)) (by simpa using h2), hn, State.setPc_pc, h3]
  rfl

theorem fetchInstr_two (s : State) (h : s.pc < 0xFFFD#16) (hn : operandBytes (read8 s s.pc) = 2) :
    fetchInstr s = .ok (decodeFirst (read8 s s.pc) 0#8 (leWord (read8 s (s.pc + 1#16)) (read8 s (s.pc + 2#16))),
      s.setPc (s.pc + 3#16)) := by
  have h1 : s.pc ≠ 0xFFFF#16 := by rintro e; simp [e] at h
  have h2 : s.pc + 1#16 < 0xFFFE#16 := by bv_omega
  have h3 : s.pc + 1#16 + 2#16 = s.pc + 3#16 := by bv_omega
  have h4 : s.pc + 1#16 + 1#16 = s.pc + 2#16 := by bv_omega
  simp only [fetchInstr, fetch8_ok s h1, fetch16_ok (s.setPc (s.pc + 1#16)) (by simpa using h2), hn, State.setPc_pc, h3,
    h4]
  rfl

/-- Fetching writes nothing but PC. -/
theorem fetch8_next {s t : State} {v : Byte} (h : fetch8 s = .ok (v, t)) : ∃ pc, t = s.setPc pc := by
  by_cases hp : s.pc = 0xFFFF#16
  · simp [fetch8_top s hp] at h
  · rw [fetch8_ok s hp] at h
    cases h
    exact ⟨_, rfl⟩

theorem fetch16_next {s t : State} {v : Word} (h : fetch16 s = .ok (v, t)) : ∃ pc, t = s.setPc pc := by
  by_cases hp : s.pc < 0xFFFE#16
  · rw [fetch16_ok s hp] at h
    cases h
    exact ⟨_, rfl⟩
  · simp [fetch16_top s (by bv_omega)] at h

theorem fetchInstr_next {s t : State} {i : Instr} (h : fetchInstr s = .ok (i, t)) : ∃ pc, t = s.setPc pc := by
  unfold fetchInstr at h
  split at h
  · cases h
  · next op u hu =>
    obtain ⟨pc, rfl⟩ := fetch8_next hu
    split at h
    · cases h
      exact ⟨pc, rfl⟩
    · split at h
      · cases h
      · next hv =>
        obtain ⟨pc', rfl⟩ := fetch8_next hv
        cases h
        exact ⟨pc', rfl⟩
    · split at h
      · cases h
      · next hv =>
        obtain ⟨pc', rfl⟩ := fetch16_next hv
        cases h
        exact ⟨pc', rfl⟩

/-- Where an operand byte would be fetched at 0xFFFF the fetch faults. -/
theorem fetchInstr_short (s : State) (hn : 0xFFFF < s.pc.toNat + 1 + operandBytes (read8 s s.pc))
    (hle : operandBytes (read8 s s.pc) ≤ 2) : fetchInstr s = .error .counterOverflow := by
  by_cases h : s.pc = 0xFFFF#16
  · exact fetchInstr_top s h
  · have hp : s.pc.toNat ≠ 0xFFFF := fun e => h (BitVec.eq_of_toNat_eq e)
    have hlt := s.pc.isLt
    simp only [fetchInstr, fetch8_ok s h]
    match hm : operandBytes (read8 s s.pc), hle with
    | 0, _ => omega
    | 1, _ =>
      rw [fetch8_top (s.setPc (s.pc + 1#16)) (by rw [State.setPc_pc]; bv_omega)]; rfl
    | 2, _ =>
      rw [fetch16_top (s.setPc (s.pc + 1#16)) (by rw [State.setPc_pc]; bv_omega)]; rfl

/-! ### The stack (R38, R39) -/

theorem push16_ok (s : State) (v : Word) (h : 2#16 ≤ s.sp) :
    push16 s v = .ok (write8 (write8 (s.setSp (s.sp - 2#16)) (s.sp - 2#16) (loByte v)) (s.sp - 1#16) (hiByte v)) := by
  have h1 : ¬ s.sp < 2#16 := by bv_omega
  have h2 : s.sp - 2#16 ≠ 0xFFFF#16 := by bv_omega
  have h3 : s.sp - 2#16 + 1#16 = s.sp - 1#16 := by bv_omega
  rw [push16, if_neg h1, write16_ok _ _ h2, h3]

theorem push16_low (s : State) (v : Word) (h : s.sp < 2#16) : push16 s v = .error .stackOverflow := if_pos h

theorem pop16_ok (s : State) (h : s.sp ≤ 0xFFFD#16) :
    pop16 s = .ok (leWord (read8 s s.sp) (read8 s (s.sp + 1#16)), s.setSp (s.sp + 2#16)) := by
  have h1 : s.sp ≠ 0xFFFF#16 := by rintro e; simp [e] at h
  have h2 : ¬ 0xFFFD#16 < s.sp := by bv_omega
  simp only [pop16, read16_ok s h1, if_neg h2]

theorem pop16_second (s : State) (h : s.sp = 0xFFFE#16) : pop16 s = .error .stackOverflow := by
  simp only [pop16, h]; rfl

theorem pop16_top (s : State) (h : s.sp = 0xFFFF#16) : pop16 s = .error .outOfBounds := by
  simp only [pop16, h, read16_top]; rfl

/-- Every value of SP falls under one case of Push16. -/
theorem push16_cases (s : State) (v : Word) :
    (s.sp < 2#16 ∧ push16 s v = .error .stackOverflow) ∨
    (2#16 ≤ s.sp ∧ push16 s v =
      .ok (write8 (write8 (s.setSp (s.sp - 2#16)) (s.sp - 2#16) (loByte v)) (s.sp - 1#16) (hiByte v))) := by
  by_cases h : s.sp < 2#16
  · exact .inl ⟨h, push16_low s v h⟩
  · have h : 2#16 ≤ s.sp := by bv_omega
    exact .inr ⟨h, push16_ok s v h⟩

/-- Every value of SP falls under one case of Pop16. -/
theorem pop16_cases (s : State) :
    (s.sp ≤ 0xFFFD#16 ∧
      pop16 s = .ok (leWord (read8 s s.sp) (read8 s (s.sp + 1#16)), s.setSp (s.sp + 2#16))) ∨
    (s.sp = 0xFFFE#16 ∧ pop16 s = .error .stackOverflow) ∨ (s.sp = 0xFFFF#16 ∧ pop16 s = .error .outOfBounds) := by
  by_cases h : s.sp ≤ 0xFFFD#16
  · exact .inl ⟨h, pop16_ok s h⟩
  · by_cases h2 : s.sp = 0xFFFE#16
    · exact .inr (.inl ⟨h2, pop16_second s h2⟩)
    · have h3 : s.sp = 0xFFFF#16 := by bv_omega
      exact .inr (.inr ⟨h3, pop16_top s h3⟩)

/-- Push16 and Pop16 leave F, PC and the interrupt-control fields, and keep memory canonical. -/
theorem push16_next {s t : State} {v : Word} (h : push16 s v = .ok t) :
    t.f = s.f ∧ t.pc = s.pc ∧ t.ime = s.ime ∧ t.imePend = s.imePend ∧ (Memory.wf s.mem = true → Memory.wf t.mem = true) := by
  rcases push16_cases s v with ⟨_, e⟩ | ⟨_, e⟩
  · simp [e] at h
  · rw [e] at h
    cases h
    exact ⟨rfl, rfl, rfl, rfl, fun hm => write8_wf _ _ _ (write8_wf _ _ _ hm)⟩

theorem pop16_next {s t : State} {v : Word} (h : pop16 s = .ok (v, t)) :
    t = s.setSp (s.sp + 2#16) ∧ v = leWord (read8 s s.sp) (read8 s (s.sp + 1#16)) := by
  rcases pop16_cases s with ⟨_, e⟩ | ⟨_, e⟩ | ⟨_, e⟩
  · rw [e] at h
    cases h
    exact ⟨rfl, rfl⟩
  · simp [e] at h
  · simp [e] at h

/-- Where an instruction that pops answers a next state, the pop succeeded. -/
theorem andThen_pop16_next {s t : State} {k : Word × State → Result} (h : andThen (pop16 s) k = .next t) :
    s.sp ≤ 0xFFFD#16 ∧ k (leWord (read8 s s.sp) (read8 s (s.sp + 1#16)), s.setSp (s.sp + 2#16)) = .next t := by
  rcases pop16_cases s with ⟨h1, e⟩ | ⟨_, e⟩ | ⟨_, e⟩ <;> simp only [e, andThen_ok, andThen_error] at h
  · exact ⟨h1, h⟩
  · simp at h
  · simp at h

/-- Where an instruction that pushes answers a next state, the push succeeded. -/
theorem andThen_push16_next {s t : State} {v : Word} {k : State → Result} (h : andThen (push16 s v) k = .next t) :
    ∃ u, push16 s v = .ok u ∧ k u = .next t := by
  rcases push16_cases s v with ⟨_, e⟩ | ⟨_, e⟩ <;> simp only [e, andThen_ok, andThen_error] at h
  · simp at h
  · exact ⟨_, e, h⟩

/-! ### Returns and calls (R211, R217) -/

theorem returnFromStack_ok (s : State) (h : s.sp ≤ 0xFFFD#16) :
    returnFromStack s =
      .next ((s.setSp (s.sp + 2#16)).setPc (leWord (read8 s s.sp) (read8 s (s.sp + 1#16)))) := by
  simp [returnFromStack, pop16_ok s h]

theorem callTo_ok (target : Word) (s : State) (h : 2#16 ≤ s.sp) :
    callTo target s =
      .next ((write8 (write8 (s.setSp (s.sp - 2#16)) (s.sp - 2#16) (loByte s.pc)) (s.sp - 1#16)
        (hiByte s.pc)).setPc target) := by
  simp [callTo, push16_ok s s.pc h]

/-! ### Bytes placed at PC -/

@[simp] theorem placeBytes_pc (s : State) (bytes : List Byte) : (placeBytes s bytes).pc = s.pc := rfl
@[simp] theorem placeBytes_f (s : State) (bytes : List Byte) : (placeBytes s bytes).f = s.f := rfl
@[simp] theorem placeBytes_sp (s : State) (bytes : List Byte) : (placeBytes s bytes).sp = s.sp := rfl
@[simp] theorem placeBytes_ime (s : State) (bytes : List Byte) : (placeBytes s bytes).ime = s.ime := rfl
@[simp] theorem placeBytes_imePend (s : State) (bytes : List Byte) : (placeBytes s bytes).imePend = s.imePend := rfl
@[simp] theorem placeBytes_getR8 (s : State) (bytes : List Byte) (r : R8) : (placeBytes s bytes).getR8 r = s.getR8 r := by
  cases r <;> rfl

/-- Byte `k` of what was placed lies at PC + `k`. -/
theorem get_placeBytes (s : State) (bytes : List Byte) (k : Nat) (hk : k < bytes.length)
    (hm : s.pc.toNat + k < Config.memSize) :
    Memory.get (placeBytes s bytes).mem (s.pc.toNat + k) = bytes.getD k 0#8 :=
  get_storeBytes_inside bytes s.mem s.pc.toNat k hk hm

/-! ### Group CB -/

/-- `ExecCB` runs the meaning of the instruction the second byte selects, whatever the operand form. -/
theorem execCb_reg (cb : Byte) (r : R8) (s : State) (h : operand8 (fieldZ cb) = .reg r) :
    execCb cb s = execCbReg (cbOpOf cb) r s := by
  simp only [execCb, h]

theorem execCb_indHL (cb : Byte) (s : State) (h : operand8 (fieldZ cb) = .indHL) :
    execCb cb s = execCbHl (cbOpOf cb) s := by
  simp only [execCb, h]

end Sys2Proof.Machine
end

