-- ==== Sys2Proof/Laws/Frames.lean ====
section
/-! SUPPORT. Frames put together from the frames of the named updates: what each update may write, once, and how frames
chain and widen. -/

namespace Sys2Proof.Safety

open Sys2Proof.Machine

/-! ### Chaining and widening -/

theorem SameExcept.refl (parts : List Part) (s : State) : SameExcept parts s s :=
  ⟨fun _ _ => rfl, fun _ => rfl, fun _ => rfl, fun _ => rfl, fun _ => rfl, fun _ => rfl, fun _ _ => rfl⟩

theorem SameExcept.trans {parts : List Part} {s t u : State} (h : SameExcept parts s t) (h' : SameExcept parts t u) :
    SameExcept parts s u := by
  obtain ⟨h1, h2, h3, h4, h5, h6, h7⟩ := h
  obtain ⟨k1, k2, k3, k4, k5, k6, k7⟩ := h'
  exact ⟨fun r n => (k1 r n).trans (h1 r n), fun n => (k2 n).trans (h2 n), fun n => (k3 n).trans (h3 n),
    fun n => (k4 n).trans (h4 n), fun n => (k5 n).trans (h5 n), fun n => (k6 n).trans (h6 n),
    fun a n => (k7 a n).trans (h7 a n)⟩

theorem SameExcept.mono {parts parts' : List Part} {s t : State} (h : SameExcept parts s t)
    (sub : ∀ p ∈ parts, p ∈ parts') : SameExcept parts' s t := by
  obtain ⟨h1, h2, h3, h4, h5, h6, h7⟩ := h
  exact ⟨fun r n => h1 r fun m => n (sub _ m), fun n => h2 fun m => n (sub _ m), fun n => h3 fun m => n (sub _ m),
    fun n => h4 fun m => n (sub _ m), fun n => h5 fun m => n (sub _ m), fun n => h6 fun m => n (sub _ m),
    fun a n => h7 a fun st k m => n st k (sub _ m)⟩

/-! ### Bytes at PC -/

/-- Bytes placed at PC lie there. -/
theorem holdsAtPc_placeBytes (s : State) (bytes : List Byte) : HoldsAtPc (placeBytes s bytes) bytes :=
  fun k hk hm => get_placeBytes s bytes k hk hm

/-! ### The named updates -/

theorem sameExcept_setF (s : State) (v : Byte) : SameExcept [.f] s (s.setF v) :=
  ⟨fun _ _ => by simp, by simp, by simp, by simp, by simp, by simp, fun _ _ => rfl⟩

theorem sameExcept_setFlags (s : State) (z n h c : Bool) : SameExcept [.f] s (s.setFlags z n h c) :=
  sameExcept_setF s _

theorem sameExcept_setPc (s : State) (v : Word) : SameExcept [.pc] s (s.setPc v) :=
  ⟨fun _ _ => by simp, by simp, by simp, by simp, by simp, by simp, fun _ _ => rfl⟩

theorem sameExcept_setSp (s : State) (v : Word) : SameExcept [.sp] s (s.setSp v) :=
  ⟨fun _ _ => by simp, by simp, by simp, by simp, by simp, by simp, fun _ _ => rfl⟩

theorem sameExcept_setIme (s : State) (v : Bool) : SameExcept [.ime] s (s.setIme v) :=
  ⟨fun _ _ => by simp, by simp, by simp, by simp, by simp, by simp, fun _ _ => rfl⟩

theorem sameExcept_setImePend (s : State) (v : ImePend) : SameExcept [.imePend] s (s.setImePend v) :=
  ⟨fun _ _ => by simp, by simp, by simp, by simp, by simp, by simp, fun _ _ => rfl⟩

theorem sameExcept_putR8 (s : State) (r : R8) (v : Byte) : SameExcept [.r8 r] s (s.putR8 r v) := by
  refine ⟨fun q n => ?_, by simp, by simp, by simp, by simp, by simp, fun addr _ => by simp [read8]⟩
  have hq : q ≠ r := by simpa using n
  simp [hq]

theorem sameExcept_setA (s : State) (v : Byte) : SameExcept [.r8 .a] s (s.setA v) :=
  sameExcept_putR8 s .a v

theorem sameExcept_write8 (s : State) (addr : Word) (v : Byte) : SameExcept [.bytes addr 1] s (write8 s addr v) := by
  refine ⟨fun _ _ => by simp, fun _ => rfl, fun _ => rfl, fun _ => rfl, fun _ => rfl, fun _ => rfl, fun q hq => ?_⟩
  have hq := hq addr 1 (by simp)
  have hne : q ≠ addr := by rintro rfl; omega
  simp [hne]

theorem sameExcept_setHl (s : State) (v : Word) : SameExcept hlParts s (s.setHl v) :=
  ((sameExcept_putR8 s .h (hiByte v)).mono (by simp [hlParts])).trans
    ((sameExcept_putR8 _ .l (loByte v)).mono (by simp [hlParts]))

theorem sameExcept_putR16 (s : State) (rr : R16) (v : Word) : SameExcept (r16Parts rr) s (s.putR16 rr v) := by
  cases rr with
  | bc =>
    exact ((sameExcept_putR8 s .b (hiByte v)).mono (by simp [r16Parts])).trans
      ((sameExcept_putR8 _ .c (loByte v)).mono (by simp [r16Parts]))
  | de =>
    exact ((sameExcept_putR8 s .d (hiByte v)).mono (by simp [r16Parts])).trans
      ((sameExcept_putR8 _ .e (loByte v)).mono (by simp [r16Parts]))
  | hl => exact sameExcept_setHl s v
  | sp => exact sameExcept_setSp s v

theorem sameExcept_putR16Stk (s : State) (rr : R16Stk) (v : Word) :
    SameExcept (r16StkParts rr) s (s.putR16Stk rr v) := by
  cases rr with
  | bc => exact sameExcept_putR16 s .bc v
  | de => exact sameExcept_putR16 s .de v
  | hl => exact sameExcept_setHl s v

theorem sameExcept_setAf (s : State) (v : Word) : SameExcept [.r8 .a, .f] s (s.setAf v) :=
  ((sameExcept_setA s (hiByte v)).mono (by simp)).trans ((sameExcept_setF _ (loByte v &&& 0xF0#8)).mono (by simp))

theorem sameExcept_writeOperand8 (s : State) (o : Operand8) (v : Byte) :
    SameExcept [operandPart s o] s (writeOperand8 s o v) := by
  cases o with
  | reg r => exact sameExcept_putR8 s r v
  | indHL => exact sameExcept_write8 s s.hl v

/-- Two bytes stored one after the other, below the top of memory. -/
theorem sameExcept_write8_write8 (s : State) (addr : Word) (v w : Byte) (h : addr ≠ 0xFFFF#16) :
    SameExcept [.bytes addr 2] s (write8 (write8 s addr v) (addr + 1#16) w) := by
  refine ⟨fun _ _ => by simp, fun _ => rfl, fun _ => rfl, fun _ => rfl, fun _ => rfl, fun _ => rfl, fun q hq => ?_⟩
  have hq := hq addr 2 (by simp)
  have h1 : q ≠ addr := by rintro rfl; omega
  have h2 : q ≠ addr + 1#16 := by rintro rfl; bv_omega
  simp [h1, h2]

/-- A push writes SP and the two bytes below it. -/
theorem sameExcept_push16 {s t : State} {v : Word} (h : push16 s v = .ok t) :
    SameExcept [.sp, pushedBytes s] s t := by
  rcases push16_cases s v with ⟨_, e⟩ | ⟨hsp, e⟩
  · simp [e] at h
  · rw [e] at h
    cases h
    have h1 : s.sp - 2#16 ≠ 0xFFFF#16 := by bv_omega
    have h2 : s.sp - 2#16 + 1#16 = s.sp - 1#16 := by bv_omega
    have h3 := sameExcept_write8_write8 (s.setSp (s.sp - 2#16)) (s.sp - 2#16) (loByte v) (hiByte v) h1
    rw [h2] at h3
    exact ((sameExcept_setSp s (s.sp - 2#16)).mono (by simp)).trans (h3.mono (by simp [pushedBytes]))

/-- A pop writes SP. -/
theorem sameExcept_pop16 {s t : State} {v : Word} (h : pop16 s = .ok (v, t)) : SameExcept [.sp] s t := by
  rw [(pop16_next h).1]
  exact sameExcept_setSp s _

/-! ### The shared ends of the meanings -/

theorem commitAlu_next {x : Alu8} {s t : State} (h : commitAlu x s = .next t) :
    t.a = x.r ∧ t.f = packFlags x.z x.n x.h x.c ∧ SameExcept [.r8 .a, .f] s t := by
  cases h
  exact ⟨rfl, rfl, ((sameExcept_setA s x.r).mono (by simp)).trans
    ((sameExcept_setFlags _ x.z x.n x.h x.c).mono (by simp))⟩

theorem commitCompare_next {x : Alu8} {s t : State} (h : commitCompare x s = .next t) :
    t.f = packFlags x.z x.n x.h x.c ∧ SameExcept [.f] s t := by
  cases h
  exact ⟨rfl, sameExcept_setFlags s x.z x.n x.h x.c⟩

theorem commitStep8_next {o : Operand8} {x : Step8} {s t : State} (h : commitStep8 o x s = .next t) :
    t.f = packFlags x.z x.n x.h s.flagC ∧ SameExcept [operandPart s o, .f] s t := by
  cases h
  exact ⟨rfl, ((sameExcept_writeOperand8 s o x.r).mono (by simp)).trans
    ((sameExcept_setFlags _ x.z x.n x.h s.flagC).mono (by simp))⟩

theorem commitShift_next {o : Operand8} {x : Shift8} {s t : State} (h : commitShift o x s = .next t) :
    t.f = packFlags (x.r == 0#8) false false x.co ∧ SameExcept [operandPart s o, .f] s t := by
  cases h
  exact ⟨rfl, ((sameExcept_writeOperand8 s o x.r).mono (by simp)).trans
    ((sameExcept_setFlags _ (x.r == 0#8) false false x.co).mono (by simp))⟩

theorem commitShiftA_next {x : Shift8} {s t : State} (h : commitShiftA x s = .next t) :
    t.a = x.r ∧ t.f = packFlags false false false x.co ∧ SameExcept [.r8 .a, .f] s t := by
  cases h
  exact ⟨rfl, rfl, ((sameExcept_setA s x.r).mono (by simp)).trans
    ((sameExcept_setFlags _ false false false x.co).mono (by simp))⟩

theorem commitBit_next {b : BitVec 3} {v : Byte} {s t : State} (h : commitBit b v s = .next t) :
    t.f = packFlags (!testBit v b) false true s.flagC ∧ SameExcept [.f] s t := by
  cases h
  exact ⟨rfl, sameExcept_setFlags s (!testBit v b) false true s.flagC⟩

theorem returnFromStack_next {s t : State} (h : returnFromStack s = .next t) :
    SameExcept [.pc, .sp] s t := by
  rcases pop16_cases s with ⟨_, e⟩ | ⟨_, e⟩ | ⟨_, e⟩ <;> simp only [returnFromStack, e, andThen_ok, andThen_error] at h
  · cases h
    exact ((sameExcept_setSp s _).mono (by simp)).trans ((sameExcept_setPc _ _).mono (by simp))
  · simp at h
  · simp at h

theorem callTo_next {target : Word} {s t : State} (h : callTo target s = .next t) :
    t.pc = target ∧ SameExcept [.pc, .sp, pushedBytes s] s t := by
  rcases hp : push16 s s.pc with k | u
  · simp [callTo, hp] at h
  · simp only [callTo, hp, andThen_ok] at h
    cases h
    exact ⟨rfl, ((sameExcept_push16 hp).mono (by simp)).trans ((sameExcept_setPc _ _).mono (by simp))⟩

end Sys2Proof.Safety
end

