-- ==== Sys2Proof/Laws/Exec.lean ====
section
/-! SUPPORT. The prefix runs the meaning that `exec` gives the instruction its second byte selects (30_encoding.md rule R61,
45_group3_control.md rule R221). -/

namespace Sys2Proof.Machine

theorem execCbReg_eq_exec (o : CbOp) (r : R8) (s : State) : execCbReg o r s = exec (cbRegInstr o r) s := by
  cases o with
  | rot o => cases o <;> rfl
  | bit b => rfl
  | res b => rfl
  | set b => rfl

theorem execCbHl_eq_exec (o : CbOp) (s : State) : execCbHl o s = exec (cbHlInstr o) s := by
  cases o with
  | rot o => cases o <;> rfl
  | bit b => rfl
  | res b => rfl
  | set b => rfl

/-- `ExecCB(cb)` is `exec` of the instruction that the second byte decodes to. -/
theorem execCb_eq_exec (cb : Byte) (s : State) : execCb cb s = exec (decodeCb cb) s := by
  cases h : operand8 (fieldZ cb) with
  | reg r => simp only [execCb, decodeCb, h, execCbReg_eq_exec]
  | indHL => simp only [execCb, decodeCb, h, execCbHl_eq_exec]

/-- The prefix away from the top of memory (R221). -/
theorem execPrefixCB_ok (s : State) (h : s.pc ≠ 0xFFFF#16) :
    execPrefixCB s = exec (decodeCb (read8 s s.pc)) (s.setPc (s.pc + 1#16)) := by
  rw [← execCb_eq_exec]
  simp [execPrefixCB, fetch8_ok s h]

/-- The prefix with its second byte at the top of memory (R273). -/
theorem execPrefixCB_top (s : State) (h : s.pc = 0xFFFF#16) : execPrefixCB s = .fault .counterOverflow := by
  simp [execPrefixCB, fetch8_top s h]

end Sys2Proof.Machine
end

