-- ==== Sys2Proof/Laws/PerInstr.lean ====
section
/-! SUPPORT. For every constructor of `Instr`: its encoding has the number of bytes that its format gives (30_encoding.md rule
R60). -/

namespace Sys2Proof.Laws.EncodedLength

/-- An instruction's encoding is as long as its format says. -/
def Statement (i : Instr) : Prop := (encode i).length = formatLength (instrFormat i)

theorem nop : Statement .nop := rfl
theorem ldR16N16 (rr : R16) (n16 : Word) : Statement (.ldR16N16 rr n16) := rfl
theorem ldBcA : Statement .ldBcA := rfl
theorem ldDeA : Statement .ldDeA := rfl
theorem ldHliA : Statement .ldHliA := rfl
theorem ldHldA : Statement .ldHldA := rfl
theorem ldABc : Statement .ldABc := rfl
theorem ldADe : Statement .ldADe := rfl
theorem ldAHli : Statement .ldAHli := rfl
theorem ldAHld : Statement .ldAHld := rfl
theorem ldA16Sp (a16 : Word) : Statement (.ldA16Sp a16) := rfl
theorem incR16 (rr : R16) : Statement (.incR16 rr) := rfl
theorem decR16 (rr : R16) : Statement (.decR16 rr) := rfl
theorem addHlR16 (rr : R16) : Statement (.addHlR16 rr) := rfl
theorem incR8 (r : R8) : Statement (.incR8 r) := rfl
theorem incHl : Statement .incHl := rfl
theorem decR8 (r : R8) : Statement (.decR8 r) := rfl
theorem decHl : Statement .decHl := rfl
theorem ldR8N8 (r : R8) (n8 : Byte) : Statement (.ldR8N8 r n8) := rfl
theorem ldHlN8 (n8 : Byte) : Statement (.ldHlN8 n8) := rfl
theorem rlca : Statement .rlca := rfl
theorem rrca : Statement .rrca := rfl
theorem rla : Statement .rla := rfl
theorem rra : Statement .rra := rfl
theorem daa : Statement .daa := rfl
theorem cpl : Statement .cpl := rfl
theorem scf : Statement .scf := rfl
theorem ccf : Statement .ccf := rfl
theorem jr (e8 : Byte) : Statement (.jr e8) := rfl
theorem jrCc (cc : Cond) (e8 : Byte) : Statement (.jrCc cc e8) := rfl
theorem stop : Statement .stop := rfl
theorem ldR8R8 (dst src : R8) : Statement (.ldR8R8 dst src) := rfl
theorem ldR8Hl (dst : R8) : Statement (.ldR8Hl dst) := rfl
theorem ldHlR8 (src : R8) : Statement (.ldHlR8 src) := rfl
theorem halt : Statement .halt := rfl
theorem addAR8 (r : R8) : Statement (.addAR8 r) := rfl
theorem addAHl : Statement .addAHl := rfl
theorem adcAR8 (r : R8) : Statement (.adcAR8 r) := rfl
theorem adcAHl : Statement .adcAHl := rfl
theorem subR8 (r : R8) : Statement (.subR8 r) := rfl
theorem subHl : Statement .subHl := rfl
theorem sbcAR8 (r : R8) : Statement (.sbcAR8 r) := rfl
theorem sbcAHl : Statement .sbcAHl := rfl
theorem andR8 (r : R8) : Statement (.andR8 r) := rfl
theorem andHl : Statement .andHl := rfl
theorem xorR8 (r : R8) : Statement (.xorR8 r) := rfl
theorem xorHl : Statement .xorHl := rfl
theorem orR8 (r : R8) : Statement (.orR8 r) := rfl
theorem orHl : Statement .orHl := rfl
theorem cpR8 (r : R8) : Statement (.cpR8 r) := rfl
theorem cpHl : Statement .cpHl := rfl
theorem addAN8 (n8 : Byte) : Statement (.addAN8 n8) := rfl
theorem adcAN8 (n8 : Byte) : Statement (.adcAN8 n8) := rfl
theorem subN8 (n8 : Byte) : Statement (.subN8 n8) := rfl
theorem sbcAN8 (n8 : Byte) : Statement (.sbcAN8 n8) := rfl
theorem andN8 (n8 : Byte) : Statement (.andN8 n8) := rfl
theorem xorN8 (n8 : Byte) : Statement (.xorN8 n8) := rfl
theorem orN8 (n8 : Byte) : Statement (.orN8 n8) := rfl
theorem cpN8 (n8 : Byte) : Statement (.cpN8 n8) := rfl
theorem popR16 (rr : R16Stk) : Statement (.popR16 rr) := rfl
theorem popAf : Statement .popAf := rfl
theorem pushR16 (rr : R16Stk) : Statement (.pushR16 rr) := rfl
theorem pushAf : Statement .pushAf := rfl
theorem ldhCA : Statement .ldhCA := rfl
theorem ldhA8A (a8 : Byte) : Statement (.ldhA8A a8) := rfl
theorem ldA16A (a16 : Word) : Statement (.ldA16A a16) := rfl
theorem ldhAC : Statement .ldhAC := rfl
theorem ldhAA8 (a8 : Byte) : Statement (.ldhAA8 a8) := rfl
theorem ldAA16 (a16 : Word) : Statement (.ldAA16 a16) := rfl
theorem addSpE8 (e8 : Byte) : Statement (.addSpE8 e8) := rfl
theorem ldHlSpE8 (e8 : Byte) : Statement (.ldHlSpE8 e8) := rfl
theorem ldSpHl : Statement .ldSpHl := rfl
theorem retCc (cc : Cond) : Statement (.retCc cc) := rfl
theorem ret : Statement .ret := rfl
theorem reti : Statement .reti := rfl
theorem jpCc (cc : Cond) (a16 : Word) : Statement (.jpCc cc a16) := rfl
theorem jp (a16 : Word) : Statement (.jp a16) := rfl
theorem jpHl : Statement .jpHl := rfl
theorem callCc (cc : Cond) (a16 : Word) : Statement (.callCc cc a16) := rfl
theorem call (a16 : Word) : Statement (.call a16) := rfl
theorem rst (t : BitVec 3) : Statement (.rst t) := rfl
theorem di : Statement .di := rfl
theorem ei : Statement .ei := rfl
theorem prefixCB : Statement .prefixCB := rfl
theorem undefinedD3 : Statement .undefinedD3 := rfl
theorem undefinedDB : Statement .undefinedDB := rfl
theorem undefinedDD : Statement .undefinedDD := rfl
theorem undefinedE3 : Statement .undefinedE3 := rfl
theorem undefinedE4 : Statement .undefinedE4 := rfl
theorem undefinedEB : Statement .undefinedEB := rfl
theorem undefinedEC : Statement .undefinedEC := rfl
theorem undefinedED : Statement .undefinedED := rfl
theorem undefinedF4 : Statement .undefinedF4 := rfl
theorem undefinedFC : Statement .undefinedFC := rfl
theorem undefinedFD : Statement .undefinedFD := rfl
theorem rlcR8 (r : R8) : Statement (.rlcR8 r) := rfl
theorem rlcHl : Statement .rlcHl := rfl
theorem rrcR8 (r : R8) : Statement (.rrcR8 r) := rfl
theorem rrcHl : Statement .rrcHl := rfl
theorem rlR8 (r : R8) : Statement (.rlR8 r) := rfl
theorem rlHl : Statement .rlHl := rfl
theorem rrR8 (r : R8) : Statement (.rrR8 r) := rfl
theorem rrHl : Statement .rrHl := rfl
theorem slaR8 (r : R8) : Statement (.slaR8 r) := rfl
theorem slaHl : Statement .slaHl := rfl
theorem sraR8 (r : R8) : Statement (.sraR8 r) := rfl
theorem sraHl : Statement .sraHl := rfl
theorem swapR8 (r : R8) : Statement (.swapR8 r) := rfl
theorem swapHl : Statement .swapHl := rfl
theorem srlR8 (r : R8) : Statement (.srlR8 r) := rfl
theorem srlHl : Statement .srlHl := rfl
theorem bitR8 (b : BitVec 3) (r : R8) : Statement (.bitR8 b r) := rfl
theorem bitHl (b : BitVec 3) : Statement (.bitHl b) := rfl
theorem resR8 (b : BitVec 3) (r : R8) : Statement (.resR8 b r) := rfl
theorem resHl (b : BitVec 3) : Statement (.resHl b) := rfl
theorem setR8 (b : BitVec 3) (r : R8) : Statement (.setR8 b r) := rfl
theorem setHl (b : BitVec 3) : Statement (.setHl b) := rfl

end Sys2Proof.Laws.EncodedLength
end

