-- ==== Sys2Proof/Tests/Slice0.lean ====
section
/-! SUPPORT. Tests and witnesses. The words are written from the rows' bit patterns (30_encoding.md, opcode_table.json); what a step
leaves is taken from the vectors and examples of 95_test_vectors.md. -/

namespace Sys2Proof.Tests

open Sys2Proof.Machine Sys2Proof.Safety

/-! ## Well-formedness -/

/-- The one ill-formed term: the prefix byte alone (R60, R221). -/
theorem test_prefix_alone_is_ill_formed : Instr.prefixCB.wellFormed = false := by decide

theorem test_undefined_opcode_is_well_formed : Instr.undefinedD3.wellFormed = true := by decide

/-! ## Decoding -/

/-- Each list of bytes decodes to its instruction, with bytes after it left alone, and is its encoding. -/
def wordsAgree (words : List (List Byte × Instr)) : Bool :=
  words.all fun (bytes, i) =>
    decode bytes == .ok (i, []) && decode (bytes ++ [0xD3#8]) == .ok (i, [0xD3#8]) && encode i == bytes

/-- Words of Group 0 (30_encoding.md rule R72), one for each row, written from the rows' bit patterns. -/
def group0WordsA : List (List Byte × Instr) := [
  ([0b00000000#8], .nop),
  ([0b00100001#8, 0xA5#8, 0xC1#8], .ldR16N16 .hl 0xC1A5#16),
  ([0b00000010#8], .ldBcA),
  ([0b00010010#8], .ldDeA),
  ([0b00100010#8], .ldHliA),
  ([0b00110010#8], .ldHldA),
  ([0b00001010#8], .ldABc),
  ([0b00011010#8], .ldADe),
  ([0b00101010#8], .ldAHli),
  ([0b00111010#8], .ldAHld),
  ([0b00001000#8, 0x34#8, 0x80#8], .ldA16Sp 0x8034#16),
  ([0b00110011#8], .incR16 .sp),
  ([0b00011011#8], .decR16 .de),
  ([0b00001001#8], .addHlR16 .bc),
  ([0b00101100#8], .incR8 .l),
  ([0b00110100#8], .incHl)]

theorem test_group0WordsA : wordsAgree group0WordsA = true := by decide

/-- Words of Group 0 (30_encoding.md rule R72), one for each row, written from the rows' bit patterns. -/
def group0WordsB : List (List Byte × Instr) := [
  ([0b00010101#8], .decR8 .d),
  ([0b00110101#8], .decHl),
  ([0b00111110#8, 0x85#8], .ldR8N8 .a 0x85#8),
  ([0b00110110#8, 0x3A#8], .ldHlN8 0x3A#8),
  ([0b00000111#8], .rlca),
  ([0b00001111#8], .rrca),
  ([0b00010111#8], .rla),
  ([0b00011111#8], .rra),
  ([0b00100111#8], .daa),
  ([0b00101111#8], .cpl),
  ([0b00110111#8], .scf),
  ([0b00111111#8], .ccf),
  ([0b00011000#8, 0xF1#8], .jr 0xF1#8),
  ([0b00110000#8, 0x85#8], .jrCc .nc 0x85#8),
  ([0b00010000#8], .stop)]

theorem test_group0WordsB : wordsAgree group0WordsB = true := by decide

/-- Words of Group 1 (R73), one for each row, written from the rows' bit patterns. -/
def group1Words : List (List Byte × Instr) := [
  ([0b01000011#8], .ldR8R8 .b .e),
  ([0b01100110#8], .ldR8Hl .h),
  ([0b01110111#8], .ldHlR8 .a),
  ([0b01110110#8], .halt)]

theorem test_group1Words : wordsAgree group1Words = true := by decide

/-- Words of Group 2 (R74), one for each row, written from the rows' bit patterns. -/
def group2Words : List (List Byte × Instr) := [
  ([0b10000000#8], .addAR8 .b),
  ([0b10000110#8], .addAHl),
  ([0b10001100#8], .adcAR8 .h),
  ([0b10001110#8], .adcAHl),
  ([0b10010010#8], .subR8 .d),
  ([0b10010110#8], .subHl),
  ([0b10011101#8], .sbcAR8 .l),
  ([0b10011110#8], .sbcAHl),
  ([0b10100001#8], .andR8 .c),
  ([0b10100110#8], .andHl),
  ([0b10101011#8], .xorR8 .e),
  ([0b10101110#8], .xorHl),
  ([0b10110111#8], .orR8 .a),
  ([0b10110110#8], .orHl),
  ([0b10111000#8], .cpR8 .b),
  ([0b10111110#8], .cpHl)]

theorem test_group2Words : wordsAgree group2Words = true := by decide

/-- Words of Group 3 (R75, R77), one for each row, written from the rows' bit patterns. -/
def group3WordsA : List (List Byte × Instr) := [
  ([0b11000110#8, 0x3A#8], .addAN8 0x3A#8),
  ([0b11001110#8, 0xF1#8], .adcAN8 0xF1#8),
  ([0b11010110#8, 0x85#8], .subN8 0x85#8),
  ([0b11011110#8, 0x3A#8], .sbcAN8 0x3A#8),
  ([0b11100110#8, 0xF1#8], .andN8 0xF1#8),
  ([0b11101110#8, 0x85#8], .xorN8 0x85#8),
  ([0b11110110#8, 0x3A#8], .orN8 0x3A#8),
  ([0b11111110#8, 0xF1#8], .cpN8 0xF1#8),
  ([0b11100001#8], .popR16 .hl),
  ([0b11110001#8], .popAf),
  ([0b11010101#8], .pushR16 .de),
  ([0b11110101#8], .pushAf),
  ([0b11100010#8], .ldhCA),
  ([0b11100000#8, 0x85#8], .ldhA8A 0x85#8),
  ([0b11101010#8, 0xA5#8, 0xC1#8], .ldA16A 0xC1A5#16),
  ([0b11110010#8], .ldhAC)]

theorem test_group3WordsA : wordsAgree group3WordsA = true := by decide

/-- Words of Group 3 (R75, R77), one for each row, written from the rows' bit patterns. -/
def group3WordsB : List (List Byte × Instr) := [
  ([0b11110000#8, 0x3A#8], .ldhAA8 0x3A#8),
  ([0b11111010#8, 0x34#8, 0x80#8], .ldAA16 0x8034#16),
  ([0b11101000#8, 0xF1#8], .addSpE8 0xF1#8),
  ([0b11111000#8, 0x85#8], .ldHlSpE8 0x85#8),
  ([0b11111001#8], .ldSpHl),
  ([0b11011000#8], .retCc .c),
  ([0b11001001#8], .ret),
  ([0b11011001#8], .reti),
  ([0b11001010#8, 0xA5#8, 0xC1#8], .jpCc .z 0xC1A5#16),
  ([0b11000011#8, 0x34#8, 0x80#8], .jp 0x8034#16),
  ([0b11101001#8], .jpHl),
  ([0b11010100#8, 0xA5#8, 0xC1#8], .callCc .nc 0xC1A5#16),
  ([0b11001101#8, 0x34#8, 0x80#8], .call 0x8034#16),
  ([0b11101111#8], .rst 5#3),
  ([0b11110011#8], .di),
  ([0b11111011#8], .ei)]

theorem test_group3WordsB : wordsAgree group3WordsB = true := by decide

/-- Words of Group 3 (R75, R77), one for each row, written from the rows' bit patterns. -/
def group3WordsC : List (List Byte × Instr) := [
  ([0b11010011#8], .undefinedD3),
  ([0b11011011#8], .undefinedDB),
  ([0b11011101#8], .undefinedDD),
  ([0b11100011#8], .undefinedE3),
  ([0b11100100#8], .undefinedE4),
  ([0b11101011#8], .undefinedEB),
  ([0b11101100#8], .undefinedEC),
  ([0b11101101#8], .undefinedED),
  ([0b11110100#8], .undefinedF4),
  ([0b11111100#8], .undefinedFC),
  ([0b11111101#8], .undefinedFD)]

theorem test_group3WordsC : wordsAgree group3WordsC = true := by decide

/-- Words of Group CB (R76), one for each row, written from the rows' bit patterns. -/
def cbWordsA : List (List Byte × Instr) := [
  ([0xCB#8, 0b00000100#8], .rlcR8 .h),
  ([0xCB#8, 0b00000110#8], .rlcHl),
  ([0xCB#8, 0b00001010#8], .rrcR8 .d),
  ([0xCB#8, 0b00001110#8], .rrcHl),
  ([0xCB#8, 0b00010101#8], .rlR8 .l),
  ([0xCB#8, 0b00010110#8], .rlHl),
  ([0xCB#8, 0b00011001#8], .rrR8 .c),
  ([0xCB#8, 0b00011110#8], .rrHl),
  ([0xCB#8, 0b00100011#8], .slaR8 .e),
  ([0xCB#8, 0b00100110#8], .slaHl),
  ([0xCB#8, 0b00101111#8], .sraR8 .a),
  ([0xCB#8, 0b00101110#8], .sraHl),
  ([0xCB#8, 0b00110000#8], .swapR8 .b),
  ([0xCB#8, 0b00110110#8], .swapHl),
  ([0xCB#8, 0b00111100#8], .srlR8 .h),
  ([0xCB#8, 0b00111110#8], .srlHl)]

theorem test_cbWordsA : wordsAgree cbWordsA = true := by decide

/-- Words of Group CB (R76), one for each row, written from the rows' bit patterns. -/
def cbWordsB : List (List Byte × Instr) := [
  ([0xCB#8, 0b01011010#8], .bitR8 3#3 .d),
  ([0xCB#8, 0b01110110#8], .bitHl 6#3),
  ([0xCB#8, 0b10001101#8], .resR8 1#3 .l),
  ([0xCB#8, 0b10101110#8], .resHl 5#3),
  ([0xCB#8, 0b11011001#8], .setR8 3#3 .c),
  ([0xCB#8, 0b11110110#8], .setHl 6#3)]

theorem test_cbWordsB : wordsAgree cbWordsB = true := by decide

/-- A prefix byte with nothing after it is the prefix row (R221; log entry 5). -/
theorem test_prefix_row : decode [0b11001011#8] = .ok (.prefixCB, []) := by decide

/-- The slot where both operand codes name `[HL]` is HALT, and 0xCB before it is BIT 6,[HL] (R78, R76). -/
theorem test_halt_slot :
    decode [0x76#8] = .ok (.halt, []) ∧ decode [0xCB#8, 0x76#8] = .ok (.bitHl 6#3, []) := by decide

theorem test_no_byte : decode [] = .error .noByte := by decide

theorem test_truncated : decode [0x21#8, 0x34#8] = .error (.truncated 0x21#8) := by decide

theorem test_table_word_one_byte : decodeTableWord 8 0x3C = some (.incR8 .a) := by decide

/-- Operand bytes the table leaves out are zeros. -/
theorem test_table_word_operand_left_out : decodeTableWord 8 0x3E = some (.ldR8N8 .a 0x00#8) := by decide

theorem test_table_word_prefix : decodeTableWord 8 0xCB = some .prefixCB := by decide

theorem test_table_word_cb : decodeTableWord 16 0x37CB = some (.swapR8 .a) := by decide

/-! ## Steps -/

/-- The state after `construct` and `load_image`, memory apart (95_test_vectors.md, "Conventions"). -/
def boot : State := { State.reset with pc := 0x0100#16 }

/-- Whether an outcome is a next state that passes the check. -/
def nextPasses (r : Result) (check : State → Bool) : Bool :=
  match r with
  | .next t => check t
  | .fault _ => false
  | .refused _ => false

/-- The step that runs the bytes from PC answers a next state that passes the check. -/
def leaves (s : State) (bytes : List Byte) (check : State → Bool) : Bool :=
  nextPasses (step (placeBytes s bytes)) check

/-- The step that runs the word answers a next state that passes the check. -/
def leavesWord (s : State) (nbits w : Nat) (check : State → Bool) : Bool :=
  nextPasses (step (s.withFetchWord nbits w)) check

/-- The step that runs the bytes from PC ends in this fault. -/
def faults (s : State) (bytes : List Byte) (fault : Fault) : Bool :=
  match step (placeBytes s bytes) with
  | .next _ => false
  | .fault k => k == fault
  | .refused _ => false

/-! ### 41_group0.md; vectors of 95_test_vectors.md section 2.2 -/

theorem test_nop_advances :
    leaves boot [0x00#8] (fun t => t.pc == 0x0101#16 && t.f == 0x00#8) = true := by decide
theorem test_ld_r16_n16_is_little_endian :
    leaves boot [0x01#8, 0x34#8, 0x12#8] (fun t => t.b == 0x12#8 && t.c == 0x34#8) = true := by decide
theorem test_ld_hli_a_wraps :
    leaves ({ boot with h := 0xFF#8, l := 0xFF#8, a := 0x11#8 }) [0x22#8] (fun t => t.hl == 0x0000#16 && read8 t 0xFFFF#16 == 0x11#8) = true := by decide
theorem test_ld_hld_a_wraps :
    leaves ({ boot with h := 0x00#8, l := 0x00#8, a := 0x22#8 }) [0x32#8] (fun t => t.hl == 0xFFFF#16 && read8 t 0x0000#16 == 0x22#8) = true := by decide
theorem test_ld_a_hli :
    leaves ({ boot with h := 0xC0#8, l := 0x00#8, mem := [(0xC000, 0x07#8)] }) [0x2A#8] (fun t => t.a == 0x07#8 && t.hl == 0xC001#16) = true := by decide
theorem test_ld_a_hld :
    leaves ({ boot with h := 0xC0#8, l := 0x01#8, mem := [(0xC001, 0x08#8)] }) [0x3A#8] (fun t => t.a == 0x08#8 && t.hl == 0xC000#16) = true := by decide
theorem test_ld_a16_sp_at_the_top :
    leaves ({ boot with sp := 0x1234#16 }) [0x08#8, 0xFE#8, 0xFF#8] (fun t => read8 t 0xFFFE#16 == 0x34#8 && read8 t 0xFFFF#16 == 0x12#8) = true := by decide
theorem test_inc_r16_keeps_flags :
    leaves ({ boot with b := 0x00#8, c := 0xFF#8, f := 0xF0#8 }) [0x03#8] (fun t => t.bc == 0x0100#16 && t.f == 0xF0#8) = true := by decide
theorem test_inc_sp_wraps :
    leaves ({ boot with sp := 0xFFFF#16 }) [0x33#8] (fun t => t.sp == 0x0000#16 && t.f == 0x00#8) = true := by decide
theorem test_dec_de_wraps :
    leaves ({ boot with d := 0x00#8, e := 0x00#8 }) [0x1B#8] (fun t => t.de == 0xFFFF#16 && t.f == 0x00#8) = true := by decide
theorem test_add_hl_bc_keeps_z :
    leaves ({ boot with h := 0x0F#8, l := 0xFF#8, b := 0x00#8, c := 0x01#8, f := 0x80#8 }) [0x09#8] (fun t => t.hl == 0x1000#16 && t.f == 0xA0#8) = true := by decide
theorem test_add_hl_hl_reads_once :
    leaves ({ boot with h := 0x80#8, l := 0x00#8, f := 0x40#8 }) [0x29#8] (fun t => t.hl == 0x0000#16 && t.f == 0x10#8) = true := by decide
theorem test_inc_a_keeps_c :
    leaves ({ boot with a := 0xFF#8, f := 0x10#8 }) [0x3C#8] (fun t => t.a == 0x00#8 && t.f == 0xB0#8) = true := by decide
theorem test_inc_at_hl :
    leaves ({ boot with h := 0xC0#8, l := 0x00#8, mem := [(0xC000, 0xFF#8)], f := 0x10#8 }) [0x34#8] (fun t => read8 t 0xC000#16 == 0x00#8 && t.f == 0xB0#8) = true := by decide
theorem test_dec_h_half_borrow :
    leaves ({ boot with h := 0x10#8, f := 0x10#8 }) [0x25#8] (fun t => t.h == 0x0F#8 && t.f == 0x70#8) = true := by decide
theorem test_dec_at_hl :
    leaves ({ boot with h := 0xC0#8, l := 0x00#8 }) [0x35#8] (fun t => read8 t 0xC000#16 == 0xFF#8 && t.f == 0x60#8) = true := by decide
theorem test_ld_hl_n8 :
    leaves ({ boot with h := 0xC0#8, l := 0x00#8 }) [0x36#8, 0xAB#8] (fun t => read8 t 0xC000#16 == 0xAB#8) = true := by decide
theorem test_rlca_clears_z :
    leaves ({ boot with a := 0x00#8, f := 0x10#8 }) [0x07#8] (fun t => t.a == 0x00#8 && t.f == 0x00#8) = true := by decide
theorem test_rrca_wraps_bit_0 :
    leaves ({ boot with a := 0x01#8 }) [0x0F#8] (fun t => t.a == 0x80#8 && t.f == 0x10#8) = true := by decide
theorem test_rla_takes_carry :
    leaves ({ boot with a := 0x00#8, f := 0x10#8 }) [0x17#8] (fun t => t.a == 0x01#8 && t.f == 0x00#8) = true := by decide
theorem test_rra_takes_carry :
    leaves ({ boot with a := 0x00#8, f := 0x10#8 }) [0x1F#8] (fun t => t.a == 0x80#8 && t.f == 0x00#8) = true := by decide
theorem test_daa_after_addition :
    leaves ({ boot with a := 0x9A#8 }) [0x27#8] (fun t => t.a == 0x00#8 && t.f == 0x90#8) = true := by decide
theorem test_daa_after_subtraction :
    leaves ({ boot with a := 0x99#8, f := 0x70#8 }) [0x27#8] (fun t => t.a == 0x33#8 && t.f == 0x50#8) = true := by decide
theorem test_cpl_keeps_z_and_c :
    leaves ({ boot with a := 0x35#8, f := 0x90#8 }) [0x2F#8] (fun t => t.a == 0xCA#8 && t.f == 0xF0#8) = true := by decide
theorem test_scf_keeps_z :
    leaves ({ boot with a := 0x00#8, f := 0xE0#8 }) [0x37#8] (fun t => t.f == 0x90#8) = true := by decide
theorem test_ccf_toggles :
    leaves ({ boot with a := 0x00#8, f := 0x90#8 }) [0x3F#8] (fun t => t.f == 0x80#8) = true := by decide
theorem test_jr_backwards :
    leaves boot [0x18#8, 0x80#8] (fun t => t.pc == 0x0082#16) = true := by decide
theorem test_jr_wraps_below_zero :
    leaves ({ boot with pc := 0x0000#16 }) [0x18#8, 0xFD#8] (fun t => t.pc == 0xFFFF#16) = true := by decide
theorem test_jr_nz_taken :
    leaves boot [0x20#8, 0x03#8] (fun t => t.pc == 0x0105#16) = true := by decide
theorem test_jr_nz_not_taken :
    leaves ({ boot with f := 0x80#8 }) [0x20#8, 0x03#8] (fun t => t.pc == 0x0102#16) = true := by decide
theorem test_stop_is_one_byte :
    leaves boot [0x10#8, 0x00#8] (fun t => t.pc == 0x0101#16) = true := by decide

/-! ### 42_group1.md; vectors of section 2.3 -/

theorem test_ld_hl_l_stores_the_low_address :
    leaves ({ boot with h := 0xC0#8, l := 0x05#8 }) [0x75#8] (fun t => read8 t 0xC005#16 == 0x05#8) = true := by decide
theorem test_ld_h_from_hl_reads_first :
    leaves ({ boot with h := 0xC0#8, l := 0x00#8, mem := [(0xC000, 0x99#8)] }) [0x66#8] (fun t => t.h == 0x99#8 && t.l == 0x00#8) = true := by decide
theorem test_halt_touches_nothing :
    leaves ({ boot with h := 0xC0#8, l := 0x00#8, mem := [(0xC000, 0x55#8)] }) [0x76#8] (fun t => t.pc == 0x0101#16 && read8 t 0xC000#16 == 0x55#8) = true := by decide

/-! ### 43_group2.md; vectors of section 2.4 -/

theorem test_add_a_b :
    leaves ({ boot with a := 0x3A#8, b := 0xC6#8 }) [0x80#8] (fun t => t.a == 0x00#8 && t.f == 0xB0#8) = true := by decide
theorem test_adc_a_at_hl :
    leaves ({ boot with a := 0xE1#8, h := 0xC0#8, l := 0x00#8, mem := [(0xC000, 0x1E#8)], f := 0x10#8 }) [0x8E#8] (fun t => t.a == 0x00#8 && t.f == 0xB0#8) = true := by decide
theorem test_sub_b_borrows :
    leaves ({ boot with a := 0x00#8, b := 0x01#8 }) [0x90#8] (fun t => t.a == 0xFF#8 && t.f == 0x70#8) = true := by decide
theorem test_sbc_a_b_half_borrow_with_carry :
    leaves ({ boot with a := 0x10#8, b := 0x0F#8, f := 0x10#8 }) [0x98#8] (fun t => t.a == 0x00#8 && t.f == 0xE0#8) = true := by decide
theorem test_and_l_sets_h :
    leaves ({ boot with a := 0x5A#8, f := 0xD0#8, l := 0x3F#8 }) [0xA5#8] (fun t => t.a == 0x1A#8 && t.f == 0x20#8) = true := by decide
theorem test_xor_a_clears :
    leaves ({ boot with a := 0xFF#8, f := 0xF0#8 }) [0xAF#8] (fun t => t.a == 0x00#8 && t.f == 0x80#8) = true := by decide
theorem test_or_c :
    leaves ({ boot with a := 0x5A#8, f := 0xF0#8, c := 0x05#8 }) [0xB1#8] (fun t => t.a == 0x5F#8 && t.f == 0x00#8) = true := by decide
theorem test_cp_at_hl_keeps_a :
    leaves ({ boot with a := 0x3C#8, h := 0xC0#8, l := 0x00#8, mem := [(0xC000, 0x40#8)] }) [0xBE#8] (fun t => t.a == 0x3C#8 && t.f == 0x50#8) = true := by decide

/-! ### 44_group3_data.md, 45_group3_control.md; vectors of sections 2.5 and 2.6 -/

theorem test_adc_a_n8 :
    leaves ({ boot with a := 0x01#8, f := 0x10#8 }) [0xCE#8, 0xFF#8] (fun t => t.a == 0x01#8 && t.f == 0x30#8) = true := by decide
theorem test_sbc_a_n8 :
    leaves ({ boot with a := 0x10#8, f := 0x10#8 }) [0xDE#8, 0x0F#8] (fun t => t.a == 0x00#8 && t.f == 0xE0#8) = true := by decide
theorem test_cp_n8 :
    leaves ({ boot with a := 0x3C#8 }) [0xFE#8, 0x3D#8] (fun t => t.a == 0x3C#8 && t.f == 0x70#8) = true := by decide
theorem test_pop_bc :
    leaves ({ boot with sp := 0xFFFC#16, mem := [(0xFFFC, 0x5F#8), (0xFFFD, 0x3C#8)] }) [0xC1#8] (fun t => t.bc == 0x3C5F#16 && t.sp == 0xFFFE#16) = true := by decide
theorem test_pop_af_masks :
    leaves ({ boot with sp := 0xC000#16, mem := [(0xC000, 0xFF#8), (0xC001, 0x12#8)] }) [0xF1#8] (fun t => t.a == 0x12#8 && t.f == 0xF0#8) = true := by decide
theorem test_push_de_down_to_zero :
    leaves ({ boot with sp := 0x0002#16, d := 0xBE#8, e := 0xEF#8 }) [0xD5#8] (fun t => t.sp == 0x0000#16 && read8 t 0x0000#16 == 0xEF#8 && read8 t 0x0001#16 == 0xBE#8) = true := by decide
theorem test_push_af :
    leaves ({ boot with sp := 0xC002#16, a := 0x12#8, f := 0xB0#8 }) [0xF5#8] (fun t => read8 t 0xC000#16 == 0xB0#8 && read8 t 0xC001#16 == 0x12#8) = true := by decide
theorem test_ldh_c_a_at_the_top :
    leaves ({ boot with c := 0xFF#8, a := 0x42#8 }) [0xE2#8] (fun t => read8 t 0xFFFF#16 == 0x42#8) = true := by decide
theorem test_ldh_a8_a :
    leaves ({ boot with a := 0x91#8 }) [0xE0#8, 0x40#8] (fun t => read8 t 0xFF40#16 == 0x91#8) = true := by decide
theorem test_ldh_a_a8 :
    leaves ({ boot with mem := [(0xFF44, 0x90#8)] }) [0xF0#8, 0x44#8] (fun t => t.a == 0x90#8) = true := by decide
theorem test_ld_a16_a_at_the_top :
    leaves ({ boot with a := 0x07#8 }) [0xEA#8, 0xFF#8, 0xFF#8] (fun t => read8 t 0xFFFF#16 == 0x07#8 && t.pc == 0x0103#16) = true := by decide
theorem test_add_sp_e8_negative :
    leaves ({ boot with sp := 0xFFF8#16 }) [0xE8#8, 0xFE#8] (fun t => t.sp == 0xFFF6#16 && t.f == 0x30#8) = true := by decide
theorem test_ld_hl_sp_e8_clears_z_n :
    leaves ({ boot with sp := 0x0000#16, f := 0xF0#8 }) [0xF8#8, 0x80#8] (fun t => t.hl == 0xFF80#16 && t.f == 0x00#8) = true := by decide
theorem test_ret_z_taken :
    leaves ({ boot with f := 0x80#8, sp := 0xFFFB#16, mem := [(0xFFFB, 0x03#8), (0xFFFC, 0x01#8)] }) [0xC8#8] (fun t => t.pc == 0x0103#16 && t.sp == 0xFFFD#16) = true := by decide
theorem test_ret_nc_not_taken :
    leaves ({ boot with f := 0x10#8, sp := 0xFFFB#16, mem := [(0xFFFB, 0x03#8), (0xFFFC, 0x01#8)] }) [0xD0#8] (fun t => t.pc == 0x0101#16 && t.sp == 0xFFFB#16) = true := by decide
theorem test_reti_sets_ime :
    leaves ({ boot with sp := 0xFFFB#16, mem := [(0xFFFB, 0x50#8), (0xFFFC, 0x01#8)] }) [0xD9#8] (fun t => t.pc == 0x0150#16 && t.ime == true) = true := by decide
theorem test_jp_nz_not_taken :
    leaves ({ boot with f := 0x80#8 }) [0xC2#8, 0x00#8, 0x02#8] (fun t => t.pc == 0x0103#16) = true := by decide
theorem test_jp_hl_reads_no_memory :
    leaves ({ boot with h := 0x02#8, l := 0x34#8, mem := [(0x0234, 0xAA#8)] }) [0xE9#8] (fun t => t.pc == 0x0234#16) = true := by decide
theorem test_call_nz_pushes_the_next_address :
    leaves ({ boot with sp := 0xFFFD#16 }) [0xC4#8, 0x00#8, 0x02#8] (fun t => t.pc == 0x0200#16 && read8 t 0xFFFB#16 == 0x03#8 && read8 t 0xFFFC#16 == 0x01#8) = true := by decide
theorem test_rst_28 :
    leaves ({ boot with pc := 0x0150#16, sp := 0xFFFD#16 }) [0xEF#8] (fun t => t.pc == 0x0028#16 && read8 t 0xFFFB#16 == 0x51#8 && read8 t 0xFFFC#16 == 0x01#8) = true := by decide
theorem test_di_cancels_a_pending_enable :
    leaves ({ boot with imePend := .armed0 }) [0xF3#8] (fun t => t.ime == false && t.imePend == .none) = true := by decide
theorem test_ei_arms :
    leaves boot [0xFB#8] (fun t => t.ime == false && t.imePend == .armed0) = true := by decide
theorem test_ei_after_ei_does_not_restart_the_delay :
    leaves ({ boot with imePend := .armed0 }) [0xFB#8] (fun t => t.ime == true && t.imePend == .none) = true := by decide

/-! ### 46_group_cb.md; vectors of section 2.7 -/

theorem test_rlc_b :
    leaves ({ boot with b := 0x85#8 }) [0xCB#8, 0x00#8] (fun t => t.b == 0x0B#8 && t.f == 0x10#8) = true := by decide
theorem test_rl_at_hl :
    leaves ({ boot with h := 0xC0#8, l := 0x00#8, mem := [(0xC000, 0x11#8)], f := 0x10#8 }) [0xCB#8, 0x16#8] (fun t => read8 t 0xC000#16 == 0x23#8 && t.f == 0x00#8) = true := by decide
theorem test_rr_e_takes_carry :
    leaves ({ boot with f := 0x10#8 }) [0xCB#8, 0x1B#8] (fun t => t.e == 0x80#8 && t.f == 0x00#8) = true := by decide
theorem test_sla_h :
    leaves ({ boot with h := 0x80#8 }) [0xCB#8, 0x24#8] (fun t => t.h == 0x00#8 && t.f == 0x90#8) = true := by decide
theorem test_sra_l_keeps_the_sign :
    leaves ({ boot with l := 0x81#8 }) [0xCB#8, 0x2D#8] (fun t => t.l == 0xC0#8 && t.f == 0x10#8) = true := by decide
theorem test_swap_a_clears_c :
    leaves ({ boot with a := 0xF1#8, f := 0x10#8 }) [0xCB#8, 0x37#8] (fun t => t.a == 0x1F#8 && t.f == 0x00#8) = true := by decide
theorem test_srl_at_hl :
    leaves ({ boot with h := 0xC0#8, l := 0x00#8, mem := [(0xC000, 0xFF#8)] }) [0xCB#8, 0x3E#8] (fun t => read8 t 0xC000#16 == 0x7F#8 && t.f == 0x10#8) = true := by decide
theorem test_bit_3_at_hl_keeps_c :
    leaves ({ boot with h := 0xC0#8, l := 0x00#8, mem := [(0xC000, 0x10#8)], f := 0x10#8 }) [0xCB#8, 0x5E#8] (fun t => t.f == 0xB0#8 && read8 t 0xC000#16 == 0x10#8) = true := by decide
theorem test_res_7_at_hl :
    leaves ({ boot with h := 0xC0#8, l := 0x00#8, mem := [(0xC000, 0xFF#8)] }) [0xCB#8, 0xBE#8] (fun t => read8 t 0xC000#16 == 0x7F#8 && t.f == 0x00#8) = true := by decide
theorem test_set_1_e :
    leaves boot [0xCB#8, 0xCB#8] (fun t => t.e == 0x02#8 && t.pc == 0x0102#16) = true := by decide
theorem test_set_7_a_keeps_flags :
    leaves ({ boot with f := 0xF0#8 }) [0xCB#8, 0xFF#8] (fun t => t.a == 0x80#8 && t.f == 0xF0#8) = true := by decide

/-! ### Steps that fault (60_exceptions.md; vectors of sections 2.2, 2.5, 2.6, 2.8) -/

theorem test_ld_a16_sp_out_of_bounds : faults ({ boot with sp := 0x1234#16 }) [0x08#8, 0xFF#8, 0xFF#8] .outOfBounds = true := by decide
theorem test_push_with_sp_1 : faults ({ boot with sp := 0x0001#16, b := 0x12#8, c := 0x34#8 }) [0xC5#8] .stackOverflow = true := by decide
theorem test_pop_with_sp_fffe : faults ({ boot with sp := 0xFFFE#16, mem := [(0xFFFE, 0x34#8), (0xFFFF, 0x12#8)] }) [0xC1#8] .stackOverflow = true := by decide
theorem test_pop_with_sp_ffff : faults ({ boot with sp := 0xFFFF#16 }) [0xE1#8] .outOfBounds = true := by decide
theorem test_call_from_reset_sp : faults ({ boot with sp := 0x0000#16 }) [0xCD#8, 0x34#8, 0x12#8] .stackOverflow = true := by decide
theorem test_undefined_d3 : faults boot [0xD3#8] (.undefinedOpcode 0xD3#8) = true := by decide
theorem test_fetch_at_the_top : faults ({ boot with pc := 0xFFFF#16 }) [0x00#8] .counterOverflow = true := by decide
theorem test_operand_at_the_top : faults ({ boot with pc := 0xFFFE#16 }) [0x3E#8, 0x05#8] .counterOverflow = true := by decide
theorem test_prefix_at_the_top : faults ({ boot with pc := 0xFFFE#16 }) [0xCB#8, 0x00#8] .counterOverflow = true := by decide

/-! ## Witnesses: concrete states and operands that meet the hypotheses of each obligation, clause by clause -/

/-- Placed bytes lie at PC: the hypothesis `HoldsAtPc` of the statements about a step. -/
theorem witness_holds_at_pc : HoldsAtPc (placeBytes boot [0x3E#8, 0x05#8]) (encode (.ldR8N8 .a 0x05#8)) :=
  holdsAtPc_placeBytes boot [0x3E#8, 0x05#8]

/-- O2: the longest image that fits, its last byte, the addresses beside the window, and the shortest that does not. -/
theorem witness_LoadImageFillsTheWindow :
    (List.replicate 65280 0xAA#8).length ≤ 65280 ∧ 65279 < (List.replicate 65280 0xAA#8).length ∧
    (0x00FF#16).toNat < 0x0100 ∧ 0x0100 + ([0x3C#8] : List Byte).length ≤ (0x0101#16).toNat ∧
    65280 < (List.replicate 65281 0xAA#8).length := by
  simp only [List.length_replicate]
  decide

/-- O4, O38: the last address that holds a word, and the one that does not. -/
theorem witness_WordsAreLittleEndian : (0xFFFE#16 : Word) ≠ 0xFFFF#16 ∧ (0xFFFF#16 : Word) = 0xFFFF#16 := by decide

/-- O5: the last PC for each of the two fetches, and the first where each faults. -/
theorem witness_FetchReadsAtPcAndAdvances :
    ({ boot with pc := 0xFFFF#16 } : State).pc = 0xFFFF#16 ∧ 0xFFFE#16 ≤ ({ boot with pc := 0xFFFE#16 } : State).pc ∧
    ({ boot with pc := 0xFFFE#16 } : State).pc ≠ 0xFFFF#16 ∧ ({ boot with pc := 0xFFFD#16 } : State).pc < 0xFFFE#16 := by
  decide

/-- O6, O7, O41, O42, O55, O56: SP at both ends of every clause. -/
theorem witness_stack_pointers :
    ({ boot with sp := 1#16 } : State).sp < 2#16 ∧ 2#16 ≤ ({ boot with sp := 2#16 } : State).sp ∧
    ({ boot with sp := 0xFFFD#16 } : State).sp ≤ 0xFFFD#16 ∧ ({ boot with sp := 0xFFFE#16 } : State).sp = 0xFFFE#16 ∧
    ({ boot with sp := 0xFFFF#16 } : State).sp = 0xFFFF#16 := by decide

/-- O55: a condition that holds and one that does not. -/
theorem witness_conditions :
    ({ boot with f := 0x80#8 } : State).cond .z = true ∧ ({ boot with f := 0x80#8 } : State).cond .nz = false := by decide

/-- O6, O41: a push with SP = 2 and a pop with SP = 0xFFFD succeed. -/
theorem witness_PushAndPopPairs :
    leaves { boot with sp := 2#16, b := 0x12#8 } [0xC5#8] (fun t => t.sp == 0#16 && read8 t 1#16 == 0x12#8) = true ∧
    leaves { boot with sp := 0xFFFD#16, mem := [(0xFFFE, 0x12#8)] } [0xC1#8] (fun t => t.sp == 0xFFFF#16 && t.b == 0x12#8) =
      true := by decide

/-- O13: the greatest operands. -/
theorem witness_DaaMakesDecimalArithmetic : 99 < 100 ∧ 0 < 100 := by decide

/-- O37: a word whose bits 3 to 0 are 0. -/
theorem witness_SixteenBitLoads : (0xFFF0#16 : Word).toNat % 16 = 0 := by decide

/-- O14, O19: well-formed instructions of one, two and three bytes. -/
theorem witness_DecodingUndoesEncoding :
    Instr.nop.wellFormed = true ∧ (Instr.setHl 7#3).wellFormed = true ∧ (Instr.call 0xFFFF#16).wellFormed = true := by decide

/-- O15: a list that decodes with bytes left, and the prefix byte alone. -/
theorem witness_EncodingUndoesDecoding :
    decode [0x01#8, 0x34#8, 0x12#8, 0x76#8] = .ok (.ldR16N16 .bc 0x1234#16, [0x76#8]) ∧
    decode [0xCB#8] = .ok (.prefixCB, []) := by decide

/-- O19: an instruction at the last PC at which it can be fetched, where exec answers a next state, and one that faults. -/
theorem witness_StepRunsTheDecodedInstruction :
    Instr.wellFormed (.ldR8N8 .a 0x05#8) = true ∧
    HoldsAtPc (placeBytes { boot with pc := 0xFFFD#16 } [0x3E#8, 0x05#8]) (encode (.ldR8N8 .a 0x05#8)) ∧
    Fetchable (placeBytes { boot with pc := 0xFFFD#16 } [0x3E#8, 0x05#8]) 2 ∧
    (∃ t, exec (.ldR8N8 .a 0x05#8) (advance (placeBytes { boot with pc := 0xFFFD#16 } [0x3E#8, 0x05#8]) 2) = .next t) ∧
    HoldsAtPc (placeBytes boot [0xD3#8]) (encode .undefinedD3) ∧ Fetchable (placeBytes boot [0xD3#8]) 1 ∧
    exec .undefinedD3 (advance (placeBytes boot [0xD3#8]) 1) = .fault (.undefinedOpcode 0xD3#8) :=
  ⟨by decide, holdsAtPc_placeBytes _ _, by unfold Fetchable; decide, ⟨_, rfl⟩, holdsAtPc_placeBytes _ _,
    by unfold Fetchable; decide, rfl⟩

/-- O20: each clause at the top of memory. -/
theorem witness_FetchFaultsAtTheTopOfMemory :
    ({ boot with pc := 0xFFFF#16 } : State).pc = 0xFFFF#16 ∧
    (HoldsAtPc (placeBytes { boot with pc := 0xFFFE#16 } [0x3E#8, 0x05#8]) (encode (.ldR8N8 .a 0x05#8)) ∧
      ¬ Fetchable (placeBytes { boot with pc := 0xFFFE#16 } [0x3E#8, 0x05#8]) 2) ∧
    (HoldsAtPc (placeBytes { boot with pc := 0xFFFE#16 } [0x3C#8]) (encode (.incR8 .a)) ∧
      (encode (.incR8 .a)).length = 1 ∧
      (∃ t, exec (.incR8 .a) (advance (placeBytes { boot with pc := 0xFFFE#16 } [0x3C#8]) 1) = .next t) ∧
      .pc ∉ writes (advance (placeBytes { boot with pc := 0xFFFE#16 } [0x3C#8]) 1) (.incR8 .a)) ∧
    (HoldsAtPc (placeBytes { boot with pc := 0xFFFE#16 } [0xD3#8]) [0xD3#8] ∧
      instrFormat (decodeFirst 0xD3#8 0#8 0#16) = .illegal) :=
  ⟨rfl, ⟨holdsAtPc_placeBytes _ _, by unfold Fetchable; decide⟩,
    ⟨holdsAtPc_placeBytes _ _, rfl, ⟨_, rfl⟩, by simp [writes]⟩, holdsAtPc_placeBytes _ _, by decide⟩

/-- O21, O23: the state after `construct` is reached, meets the invariant and steps on. -/
theorem witness_StepKeepsTheInvariant :
    Reachable State.reset ∧ Inv State.reset ∧ step State.reset = .next { State.reset with pc := 0x0001#16 } :=
  ⟨.construct, by decide, rfl⟩

/-- O24: the last PC at which the prefix finds its second byte, and the one at which it does not. -/
theorem witness_PrefixRunsTheSelectedCbInstruction :
    ({ boot with pc := 0xFFFE#16 } : State).pc ≠ 0xFFFF#16 ∧ ({ boot with pc := 0xFFFF#16 } : State).pc = 0xFFFF#16 := by
  decide

/-- O26: each side of each equivalence is met. -/
theorem witness_FaultsOnlyWhereTheSpecSays :
    (Pushes { boot with sp := 1#16 } .pushAf ∧ exec .pushAf { boot with sp := 1#16 } = .fault .stackOverflow) ∧
    (Pops { boot with sp := 0xFFFE#16 } .ret ∧ exec .ret { boot with sp := 0xFFFE#16 } = .fault .stackOverflow) ∧
    (Pops { boot with sp := 0xFFFF#16 } .ret ∧ exec .ret { boot with sp := 0xFFFF#16 } = .fault .outOfBounds) ∧
    exec (.ldA16Sp 0xFFFF#16) boot = .fault .outOfBounds ∧
    exec .prefixCB { boot with pc := 0xFFFF#16 } = .fault .counterOverflow :=
  ⟨⟨.inl rfl, rfl⟩, ⟨.inr (.inr (.inl rfl)), rfl⟩, ⟨.inr (.inr (.inl rfl)), rfl⟩, rfl, rfl⟩

/-- O27, O30: an instruction that answers a next state and one that faults. -/
theorem witness_NothingElseIsWritten :
    exec .di boot = .next { boot with ime := false, imePend := .none } ∧
    exec .ret { boot with sp := 0xFFFF#16 } = .fault .outOfBounds := ⟨rfl, rfl⟩

/-- O28: EI with no enable in flight; an enable in flight before an instruction that runs, before DI and before one that
faults. -/
theorem witness_EnableComesOneInstructionLate :
    (placeBytes boot [0xFB#8]).imePend = .none ∧ HoldsAtPc (placeBytes boot [0xFB#8]) [0xFB#8] ∧
    Fetchable (placeBytes boot [0xFB#8]) 1 ∧
    (placeBytes { boot with imePend := .armed0 } [0x00#8]).imePend = .armed0 ∧
    HoldsAtPc (placeBytes { boot with imePend := .armed0 } [0x00#8]) (encode .nop) ∧
    (∃ t, exec .nop (advance (placeBytes { boot with imePend := .armed0 } [0x00#8]) 1) = .next t) ∧
    HoldsAtPc (placeBytes { boot with imePend := .armed0 } [0xF3#8]) (encode .di) ∧
    (∃ t, exec .di (advance (placeBytes { boot with imePend := .armed0 } [0xF3#8]) 1) = .next t) ∧
    HoldsAtPc (placeBytes { boot with imePend := .armed0 } [0xD3#8]) (encode .undefinedD3) ∧
    exec .undefinedD3 (advance (placeBytes { boot with imePend := .armed0 } [0xD3#8]) 1) =
      .fault (.undefinedOpcode 0xD3#8) :=
  ⟨rfl, holdsAtPc_placeBytes _ _, by unfold Fetchable; decide, rfl, holdsAtPc_placeBytes _ _, ⟨_, rfl⟩,
    holdsAtPc_placeBytes _ _, ⟨_, rfl⟩, holdsAtPc_placeBytes _ _, rfl⟩

/-- O29: an instruction that is none of DI, RETI, EI; DI; RETI; and the three values of ime_pend. -/
theorem witness_OnlyDiRetiEiWriteInterruptControl :
    (exec .nop boot = .next boot ∧ Instr.nop ≠ .di ∧ Instr.nop ≠ .reti ∧ Instr.nop ≠ .ei) ∧
    (∃ t, exec .di boot = .next t) ∧ (∃ t, exec .reti { boot with sp := 0xFFFD#16 } = .next t) ∧
    ({ boot with imePend := .armed1 } : State).imePend = .armed1 ∧
    ({ boot with imePend := .armed0 } : State).imePend = .armed0 ∧ boot.imePend = .none :=
  ⟨⟨rfl, by decide, by decide, by decide⟩, ⟨_, rfl⟩, ⟨_, rfl⟩, rfl, rfl, rfl⟩

/-- O33: both values of a condition, an unconditional instruction with operand bytes, and a CB instruction. -/
theorem witness_OnlyConditionsChangeTheCost :
    ({ boot with f := 0x80#8 } : State).cond .z = true ∧ boot.cond .z = false ∧
    (encode (.ldA16A 0xFFFF#16) = [0xEA#8, 0xFF#8, 0xFF#8] ∧ (0xEA#8 : Byte) ≠ 0xCB#8 ∧
      (∀ cc e8, Instr.ldA16A 0xFFFF#16 ≠ .jrCc cc e8) ∧ (∀ cc a16, Instr.ldA16A 0xFFFF#16 ≠ .jpCc cc a16) ∧
      (∀ cc a16, Instr.ldA16A 0xFFFF#16 ≠ .callCc cc a16) ∧ (∀ cc, Instr.ldA16A 0xFFFF#16 ≠ .retCc cc)) ∧
    encode (.setR8 7#3 .a) = [0xCB#8, 0xFF#8] :=
  ⟨by decide, by decide, ⟨by decide, by decide, nofun, nofun, nofun, nofun⟩, by decide⟩

/-- The statements of how an instruction is fetched (`FetchedFrom`): a state where it is, and one where it is not. -/
theorem witness_FetchedFrom :
    Fetchable { boot with pc := 0xFFFE#16 } 1 ∧ ¬ Fetchable { boot with pc := 0xFFFF#16 } 1 := by
  unfold Fetchable; decide

/-- The word stored by `withFetchWord` is the one the next step runs. -/
theorem test_with_fetch_word :
    leavesWord State.reset 8 0x3C (fun t => t.a == 0x01#8 && t.pc == 0x0001#16) = true ∧
    leavesWord State.reset 16 0x00CB (fun t => t.f == 0x80#8 && t.pc == 0x0002#16) = true := by decide

end Sys2Proof.Tests
end

section
/-! SUPPORT. How a first byte outside Group CB and its operand bytes are decoded and fetched (30_encoding.md rules R60, R61),
for any number of operand bytes: what an instruction's encoding decodes to decides how it is fetched. -/

namespace Sys2Proof

/-! ### Decoding, by how many operand bytes the first byte asks for -/

/-- No row asks for more than two operand bytes (R60). -/
theorem operandBytes_le_two (op : Byte) : operandBytes op ≤ 2 := by
  have h : ∀ f, formatLength f ≤ 3 := fun f => by cases f <;> decide
  have := h (instrFormat (decodeFirst op 0#8 0#16))
  unfold operandBytes
  omega

variable {op : Byte}

theorem decode_zero (rest : List Byte) (hp : op ≠ Config.prefixByte) (hn : operandBytes op = 0) :
    decode (op :: rest) = .ok (decodeFirst op 0#8 0#16, rest) := by
  simp only [decode, if_neg hp, hn]

theorem decode_one (n8 : Byte) (rest : List Byte) (hp : op ≠ Config.prefixByte) (hn : operandBytes op = 1) :
    decode (op :: n8 :: rest) = .ok (decodeFirst op n8 0#16, rest) := by
  simp only [decode, if_neg hp, hn]

theorem decode_two (lo hi : Byte) (rest : List Byte) (hp : op ≠ Config.prefixByte) (hn : operandBytes op = 2) :
    decode (op :: lo :: hi :: rest) = .ok (decodeFirst op 0#8 (leWord lo hi), rest) := by
  simp only [decode, if_neg hp, hn]

/-- Bytes after an encoding are left over: they do not change what it decodes to. -/
theorem decode_append {i : Instr} {args : List Byte} (rest : List Byte) (hp : op ≠ Config.prefixByte)
    (hn : operandBytes op = args.length) (hdec : decode (op :: args) = .ok (i, [])) :
    decode (op :: args ++ rest) = .ok (i, rest) := by
  have hle := operandBytes_le_two op
  match args with
  | [] =>
    rw [decode_zero [] hp hn] at hdec
    cases hdec
    exact decode_zero rest hp hn
  | [n8] =>
    rw [decode_one n8 [] hp hn] at hdec
    cases hdec
    exact decode_one n8 rest hp hn
  | [lo, hi] =>
    rw [decode_two lo hi [] hp hn] at hdec
    cases hdec
    exact decode_two lo hi rest hp hn
  | _ :: _ :: _ :: _ =>
    simp only [List.length_cons] at hn
    omega

end Sys2Proof

namespace Sys2Proof.Safety

open Sys2Proof.Machine

/-! ### Fetching what lies at PC -/

/-- Byte `k` of what lies at PC is read at PC + `k`. -/
theorem read8_of_holdsAtPc {s : State} {bytes : List Byte} (hat : HoldsAtPc s bytes) {k : Nat} (hk : k < bytes.length)
    (hm : s.pc.toNat + k < Config.memSize) : read8 s (s.pc + BitVec.ofNat 16 k) = bytes.getD k 0#8 := by
  have haddr : (s.pc + BitVec.ofNat 16 k).toNat = s.pc.toNat + k := by
    simp only [Config.memSize] at hm
    rw [BitVec.toNat_add, BitVec.toNat_ofNat]
    omega
  rw [read8, haddr, hat k hk hm]

variable {s : State} {i : Instr} {op : Byte} {args : List Byte}

/-- The first byte is read at PC, wherever PC is. -/
theorem read8_pc_of_holdsAtPc (hat : HoldsAtPc s (op :: args)) : read8 s s.pc = op := by
  simpa using read8_of_holdsAtPc hat (k := 0) (by simp) s.pc.isLt

/-- What the bytes at PC decode to is what is fetched from them, and PC is then past them (R61). -/
theorem fetchInstr_of_decode (hp : op ≠ Config.prefixByte) (hn : operandBytes op = args.length)
    (hdec : decode (op :: args) = .ok (i, [])) (hat : HoldsAtPc s (op :: args))
    (hf : Fetchable s (args.length + 1)) : fetchInstr s = .ok (i, advance s (args.length + 1)) := by
  have hop := read8_pc_of_holdsAtPc hat
  unfold Fetchable at hf
  have hle := operandBytes_le_two op
  match args with
  | [] =>
    rw [decode_zero [] hp hn] at hdec
    cases hdec
    rw [fetchInstr_zero s (by rintro e; simp [e] at hf) (by rw [hop, hn]; rfl), hop]
    rfl
  | [n8] =>
    rw [decode_one n8 [] hp hn] at hdec
    cases hdec
    simp only [List.length_cons, List.length_nil] at hf
    have h1 : read8 s (s.pc + 1#16) = n8 := read8_of_holdsAtPc hat (k := 1) (by simp) (by unfold Config.memSize; omega)
    rw [fetchInstr_one s (by bv_omega) (by rw [hop, hn]; rfl), hop, h1]
    rfl
  | [lo, hi] =>
    rw [decode_two lo hi [] hp hn] at hdec
    cases hdec
    simp only [List.length_cons, List.length_nil] at hf
    have h1 : read8 s (s.pc + 1#16) = lo := read8_of_holdsAtPc hat (k := 1) (by simp) (by unfold Config.memSize; omega)
    have h2 : read8 s (s.pc + 2#16) = hi := read8_of_holdsAtPc hat (k := 2) (by simp) (by unfold Config.memSize; omega)
    rw [fetchInstr_two s (by bv_omega) (by rw [hop, hn]; rfl), hop, h1, h2]
    rfl
  | _ :: _ :: _ :: _ =>
    simp only [List.length_cons] at hn
    omega

/-- Where the bytes at PC reach 0xFFFF the fetch faults (R36, R273). -/
theorem fetchInstr_of_not_fetchable (hn : operandBytes op = args.length) (hat : HoldsAtPc s (op :: args))
    (hf : ¬ Fetchable s (args.length + 1)) : fetchInstr s = .error .counterOverflow := by
  have hop := read8_pc_of_holdsAtPc hat
  unfold Fetchable at hf
  exact fetchInstr_short s (by rw [hop, hn]; omega) (by rw [hop]; exact operandBytes_le_two op)

/-- An instruction outside Group CB is fetched from the bytes that encode it and decode to it: the first byte, and as
many operand bytes as that byte asks for. -/
theorem fetchedFrom_of_decode (hp : op ≠ Config.prefixByte) (hn : operandBytes op = args.length)
    (henc : encode i = op :: args) (hdec : decode (op :: args) = .ok (i, [])) : FetchedFrom i (op :: args) := by
  refine ⟨henc, fun rest => decode_append rest hp hn hdec, fun s => ⟨fun hf => ?_, fun hf => ?_⟩⟩
  · simp only [step, fetchInstr_of_decode hp hn hdec (holdsAtPc_placeBytes s (op :: args)) hf, List.length_cons]
  · simp only [step, fetchInstr_of_not_fetchable hn (holdsAtPc_placeBytes s (op :: args)) hf]

end Sys2Proof.Safety
end

section
/-! PROOFS. The register pairs and the 16-bit loads (10_state.md rules R11, R15, 41_group0.md rule R111, 44_group3_data.md
rule R200): O37. -/

namespace Sys2Proof.Machine

/-! ### The halves of a pair (R11) -/

/-- `hi : lo` has `hi` as its bits 15:8 and `lo` as its bits 7:0. -/
theorem leWord_halves (lo hi : Byte) :
    hi.toNat = (leWord lo hi).toNat / 256 ∧ lo.toNat = (leWord lo hi).toNat % 256 := by
  simp only [← hiByte_toNat, ← loByte_toNat, hiByte_leWord, loByte_leWord, and_self]

/-- The two bytes of a word are its bits 15:8 and 7:0. -/
theorem word_halves (w : Word) : (hiByte w).toNat = w.toNat / 256 ∧ (loByte w).toNat = w.toNat % 256 :=
  ⟨hiByte_toNat w, loByte_toNat w⟩

/-! ### AF: bits 3:0 of F are cleared (R15, D6) -/

/-- Masking with 0xF0 clears the low nibble. -/
theorem toNat_and_highNibble (v : Byte) : (v &&& 0xF0#8).toNat = v.toNat / 16 * 16 := by
  have hshift : v &&& 0xF0#8 = v >>> 4 <<< 4 := (BitVec.shiftLeft_ushiftRight (x := v) (n := 4)).symm
  have hlt := v.isLt
  rw [hshift, BitVec.toNat_shiftLeft, BitVec.toNat_ushiftRight, Nat.shiftRight_eq_div_pow, Nat.shiftLeft_eq]
  omega

theorem State.setAf_f_toNat (s : State) (v : Word) : (s.setAf v).f.toNat = v.toNat % 256 / 16 * 16 := by
  rw [State.setAf_f, toNat_and_highNibble, loByte_toNat]

/-- AF reads back what was written where that has its bits 3:0 clear. -/
theorem State.af_setAf (s : State) {v : Word} (hv : v.toNat % 16 = 0) : (s.setAf v).af = v := by
  have hpair : (s.setAf v).af = leWord (s.setAf v).f (hiByte v) := rfl
  apply BitVec.eq_of_toNat_eq
  rw [hpair, leWord_toNat, State.setAf_f_toNat, hiByte_toNat]
  omega

/-! ### The arms of the two loads -/

theorem exec_ldR16N16 (rr : R16) (n16 : Word) (s : State) : exec (.ldR16N16 rr n16) s = .next (s.putR16 rr n16) := rfl

theorem exec_ldSpHl (s : State) : exec .ldSpHl s = .next (s.setSp s.hl) := rfl

end Sys2Proof.Machine

namespace Sys2Proof.Safety

open Sys2Proof.Machine

theorem fetchedFrom_ldR16N16 (rr : R16) (n16 : Word) :
    FetchedFrom (.ldR16N16 rr n16) [0b00#2 ++ r16Code rr ++ 0b0001#4, loByte n16, hiByte n16] := by
  have hdec : decode [0b00#2 ++ r16Code rr ++ 0b0001#4, loByte n16, hiByte n16] =
      .ok (.ldR16N16 rr (leWord (loByte n16) (hiByte n16)), []) := by cases rr <;> rfl
  rw [leWord_loByte_hiByte] at hdec
  exact fetchedFrom_of_decode (by cases rr <;> decide) (by cases rr <;> rfl) (by cases rr <;> rfl) hdec

theorem fetchedFrom_ldSpHl : FetchedFrom .ldSpHl [0xF9#8] :=
  fetchedFrom_of_decode (by decide) rfl rfl rfl

/-- Settles O37: the pairs through the halves of a word, the loads through the arm of `putR16` and `setSp`. -/
theorem sixteenBitLoads : Obligations.SixteenBitLoads := by
  refine ⟨fetchedFrom_ldR16N16, fetchedFrom_ldSpHl, fun s rr n16 => ?_⟩
  have hw := word_halves n16
  refine ⟨leWord_halves s.f s.a, leWord_halves s.c s.b, leWord_halves s.e s.d, leWord_halves s.l s.h,
    ⟨hw, s.bc_setBc n16, sameExcept_putR16 s .bc n16⟩,
    ⟨hw, s.de_setDe n16, sameExcept_putR16 s .de n16⟩,
    ⟨hw, s.hl_setHl n16, sameExcept_setHl s n16⟩,
    ⟨hiByte_toNat n16, s.setAf_f_toNat n16, s.af_setAf, sameExcept_setAf s n16⟩,
    ⟨_, exec_ldR16N16 rr n16 s, s.getR16_putR16 rr n16, sameExcept_putR16 s rr n16⟩,
    ⟨_, exec_ldR16N16 .bc n16 s, hw⟩, ⟨_, exec_ldR16N16 .de n16 s, hw⟩, ⟨_, exec_ldR16N16 .hl n16 s, hw⟩,
    ⟨_, exec_ldR16N16 .sp n16 s, rfl⟩, rfl,
    ⟨_, exec_ldSpHl s, rfl, sameExcept_setSp s s.hl⟩, rfl⟩

end Sys2Proof.Safety
end

section
/-! PROOFS. The memory primitives, the stack and `load_image` (20_memory.md rules R33, R36 to R40, R49): O2, O3, O5, O6,
O7. -/

namespace Sys2Proof.Safety

open Sys2Proof.Machine

/-! ### Loading an image (R49) -/

/-- An image that fits is placed at the entry point, with PC there. -/
theorem loadImage_eq_placeBytes (bytes : List Byte) (s : State) (h : bytes.length ≤ 65280) :
    loadImage bytes s = .next (placeBytes (s.setPc 0x0100#16) bytes) :=
  loadImage_fits bytes s h

/-- Outside the placed bytes every address reads as before. -/
theorem read8_placeBytes_outside (s : State) (bytes : List Byte) {addr : Word}
    (h : addr.toNat < s.pc.toNat ∨ s.pc.toNat + bytes.length ≤ addr.toNat) :
    read8 (placeBytes s bytes) addr = read8 s addr :=
  get_storeBytes_outside bytes s.mem s.pc.toNat addr.toNat h

/-- Byte `k` of an image that fits is read at 0x0100 + `k`. -/
theorem read8_placeBytes_origin (s : State) (bytes : List Byte) (h : bytes.length ≤ 65280) {k : Nat}
    (hk : k < bytes.length) :
    read8 (placeBytes (s.setPc 0x0100#16) bytes) (BitVec.ofNat 16 (0x0100 + k)) = bytes.getD k 0#8 := by
  have hm : (0x0100#16).toNat + k < Config.memSize := by
    simp only [Config.memSize, BitVec.toNat_ofNat]
    omega
  rw [BitVec.ofNat_add]
  exact read8_of_holdsAtPc (holdsAtPc_placeBytes (s.setPc 0x0100#16) bytes) hk hm

/-- Settles O2: an image that fits is bytes placed at PC = 0x0100, so what it leaves is what `placeBytes` and `setPc`
leave. -/
theorem loadImageFillsTheWindow : Obligations.LoadImageFillsTheWindow := by
  refine fun bytes s => ⟨fun h => ?_, loadImage_long bytes s⟩
  refine ⟨_, loadImage_eq_placeBytes bytes s h, rfl, fun k hk => read8_placeBytes_origin s bytes h hk, fun addr ha => ?_,
    fun r => by simp, rfl, rfl, rfl, rfl⟩
  exact read8_placeBytes_outside (s.setPc 0x0100#16) bytes ha

/-! ### The stack (R38 to R40) -/

/-- A push that succeeds lowers SP by 2 and leaves the word there, low byte first; nothing else differs. -/
theorem pushed_of_push16 {s t : State} {v : Word} (h : push16 s v = .ok t) : Pushed v [] s t := by
  have hframe := sameExcept_push16 h
  rcases push16_cases s v with ⟨_, e⟩ | ⟨_, e⟩
  · simp [e] at h
  · rw [e] at h
    cases h
    have hne : s.sp - 2#16 ≠ s.sp - 1#16 := by bv_omega
    exact ⟨rfl, by simp [hne], by simp, hframe⟩

/-- After a push the top of the stack is the word pushed. -/
theorem stackTop_of_pushed {s t : State} {v : Word} {others : List Part} (h : Pushed v others s t) : stackTop t = v := by
  obtain ⟨hsp, hlo, hhi, -⟩ := h
  have hnext : s.sp - 2#16 + 1#16 = s.sp - 1#16 := by bv_omega
  rw [stackTop, hsp, hnext, hlo, hhi, leWord_loByte_hiByte]

/-- Settles O6: the values of SP at which each of the two operations answers, and the state a push leaves. -/
theorem pushAndPopMoveTheStack : Obligations.PushAndPopMoveTheStack := by
  refine fun s v => ⟨push16_low s v, fun h => ?_, pop16_top s, pop16_second s, pop16_ok s⟩
  exact ⟨_, push16_ok s v h, pushed_of_push16 (push16_ok s v h)⟩

/-- Settles O7: the push leaves SP at most 0xFFFD and the word on top, so the pop gives it back. -/
theorem popUndoesPush : Obligations.PopUndoesPush := by
  intro s v h
  obtain ⟨t, ht⟩ : ∃ t, push16 s v = .ok t := ⟨_, push16_ok s v h⟩
  have hpushed := pushed_of_push16 ht
  have hsp : t.sp = s.sp - 2#16 := hpushed.1
  have hpop : pop16 t = .ok (stackTop t, t.setSp (t.sp + 2#16)) := pop16_ok t (by bv_omega)
  rw [stackTop_of_pushed hpushed] at hpop
  refine ⟨t, _, ht, hpop, ?_⟩
  rw [State.setSp_sp, hsp, BitVec.sub_add_cancel]

/-! ### One byte (R33), fetches (R36, R37) -/

/-- Settles O3: reading after writing, and the frame of `write8`. -/
theorem byteWriteChangesOneByte : Obligations.ByteWriteChangesOneByte :=
  fun s addr v => ⟨by rw [read8_write8, if_pos rfl], sameExcept_write8 s addr v⟩

/-- Settles O5: each fetch at the values of PC where it answers, and where it faults. -/
theorem fetchReadsAtPcAndAdvances : Obligations.FetchReadsAtPcAndAdvances :=
  fun s => ⟨fetch8_top s, fetch8_ok s, fetch16_top s, fun h => ⟨_, fetch16_ok s h, leWord_toNat _ _⟩⟩

end Sys2Proof.Safety
end

section
/-! PROOFS. What a step is (30_encoding.md rule R61): O19. An instruction's encoding decodes to it, and the bytes at PC
are fetched as they decode, so a step runs `exec` past them and then the hook; 0xCB goes on to the instruction that the
second byte selects (45_group3_control.md rule R221). -/

namespace Sys2Proof

/-! ### The fields of an opcode byte (R62) -/

@[simp] theorem fieldX_opXyz (x : BitVec 2) (y z : BitVec 3) : fieldX (opXyz x y z) = x := by
  revert x y z
  decide

@[simp] theorem fieldY_opXyz (x : BitVec 2) (y z : BitVec 3) : fieldY (opXyz x y z) = y := by
  revert x y z
  decide

@[simp] theorem fieldZ_opXyz (x : BitVec 2) (y z : BitVec 3) : fieldZ (opXyz x y z) = z := by
  revert x y z
  decide

/-! ### Operand codes (R63, R69) -/

@[simp] theorem operand8_r8Code (r : R8) : operand8 (r8Code r) = .reg r := by cases r <;> rfl

@[simp] theorem operand8_indHlCode : operand8 indHlCode = .indHL := rfl

@[simp] theorem rotOf_rotCode (o : RotOp) : rotOf (rotCode o) = o := by cases o <;> rfl

@[simp] theorem cbOpOf_rot (o : RotOp) (z : BitVec 3) : cbOpOf (opXyz 0b00#2 (rotCode o) z) = .rot o := by simp [cbOpOf]

@[simp] theorem cbOpOf_bit (b z : BitVec 3) : cbOpOf (opXyz 0b01#2 b z) = .bit b := by simp [cbOpOf]

@[simp] theorem cbOpOf_res (b z : BitVec 3) : cbOpOf (opXyz 0b10#2 b z) = .res b := by simp [cbOpOf]

@[simp] theorem cbOpOf_set (b z : BitVec 3) : cbOpOf (opXyz 0b11#2 b z) = .set b := by simp [cbOpOf]

/-! ### An encoding decodes to its instruction -/

/-- A word that follows its opcode low byte first is read back whole (R71). -/
theorem decode_loByte_hiByte {op : Byte} (w : Word) (hp : op ≠ Config.prefixByte) (hn : operandBytes op = 2) :
    decode [op, loByte w, hiByte w] = .ok (decodeFirst op 0#8 w, []) := by
  rw [decode_two (loByte w) (hiByte w) [] hp hn, Machine.leWord_loByte_hiByte]

/-- A CB instruction on a register (R76). -/
theorem decode_cbBytes_reg {cls : BitVec 2} {y : BitVec 3} {o : CbOp} (r : R8)
    (ho : cbOpOf (opXyz cls y (r8Code r)) = o) : decode (cbBytes cls y (r8Code r)) = .ok (cbRegInstr o r, []) := by
  have hcb : decodeCb (opXyz cls y (r8Code r)) = cbRegInstr o r := by simp [decodeCb, ho]
  rw [← hcb]
  rfl

/-- A CB instruction on the byte at HL (R76). -/
theorem decode_cbBytes_indHl {cls : BitVec 2} {y : BitVec 3} {o : CbOp}
    (ho : cbOpOf (opXyz cls y indHlCode) = o) : decode (cbBytes cls y indHlCode) = .ok (cbHlInstr o, []) := by
  have hcb : decodeCb (opXyz cls y indHlCode) = cbHlInstr o := by simp [decodeCb, ho]
  rw [← hcb]
  rfl

/-- Every instruction, 0xCB alone included, is read back from exactly its bytes: a case for each shape of
operands. -/
theorem decode_encode (i : Instr) : decode (encode i) = .ok (i, []) := by
  cases i with
  | nop | ldBcA | ldDeA | ldHliA | ldHldA | ldABc | ldADe | ldAHli | ldAHld | incHl | decHl | rlca | rrca | rla | rra
  | daa | cpl | scf | ccf | stop | halt | addAHl | adcAHl | subHl | sbcAHl | andHl | xorHl | orHl | cpHl | popAf
  | pushAf | ldhCA | ldhAC | ldSpHl | ret | reti | jpHl | di | ei | prefixCB => rfl
  | undefinedD3 | undefinedDB | undefinedDD | undefinedE3 | undefinedE4 | undefinedEB | undefinedEC | undefinedED
  | undefinedF4 | undefinedFC | undefinedFD => rfl
  | ldHlN8 n8 | jr n8 | addAN8 n8 | adcAN8 n8 | subN8 n8 | sbcAN8 n8 | andN8 n8 | xorN8 n8 | orN8 n8 | cpN8 n8
  | ldhA8A n8 | ldhAA8 n8 | addSpE8 n8 | ldHlSpE8 n8 => rfl
  | ldA16Sp w | ldA16A w | ldAA16 w | jp w | call w => exact decode_loByte_hiByte w (by decide) rfl
  | incR8 r | decR8 r | ldR8N8 r _ | ldR8Hl r | ldHlR8 r | addAR8 r | adcAR8 r | subR8 r | sbcAR8 r | andR8 r | xorR8 r
  | orR8 r | cpR8 r => cases r <;> rfl
  | ldR8R8 dst src => cases dst <;> cases src <;> rfl
  | incR16 rr | decR16 rr | addHlR16 rr | popR16 rr | pushR16 rr => cases rr <;> rfl
  | ldR16N16 rr w => cases rr <;> exact decode_loByte_hiByte w (by decide) rfl
  | jrCc cc _ | retCc cc => cases cc <;> rfl
  | jpCc cc w | callCc cc w => cases cc <;> exact decode_loByte_hiByte w (by decide) rfl
  | rst t => revert t; decide
  | rlcR8 r | rrcR8 r | rlR8 r | rrR8 r | slaR8 r | sraR8 r | swapR8 r | srlR8 r =>
    exact decode_cbBytes_reg r (cbOpOf_rot _ _)
  | rlcHl | rrcHl | rlHl | rrHl | slaHl | sraHl | swapHl | srlHl => exact decode_cbBytes_indHl (cbOpOf_rot _ _)
  | bitR8 b r => exact decode_cbBytes_reg r (cbOpOf_bit b _)
  | resR8 b r => exact decode_cbBytes_reg r (cbOpOf_res b _)
  | setR8 b r => exact decode_cbBytes_reg r (cbOpOf_set b _)
  | bitHl b => exact decode_cbBytes_indHl (cbOpOf_bit b _)
  | resHl b => exact decode_cbBytes_indHl (cbOpOf_res b _)
  | setHl b => exact decode_cbBytes_indHl (cbOpOf_set b _)

/-! ### What a list of bytes that decodes as a whole looks like -/

/-- Outside Group CB the first byte is followed by just the operand bytes it asks for. -/
theorem operandBytes_eq_length_of_decode {op : Byte} {args : List Byte} {i : Instr} (hp : op ≠ Config.prefixByte)
    (h : decode (op :: args) = .ok (i, [])) : operandBytes op = args.length := by
  simp only [decode, if_neg hp] at h
  split at h
  · next rest hn => cases h; exact hn
  · next hn => cases h; exact hn
  · next hn => cases h; exact hn
  · cases h

/-- After 0xCB a complete instruction has one byte more, which selects it (R221). -/
theorem eq_decodeCb_of_decode {args : List Byte} {i : Instr} (hi : i.wellFormed = true)
    (h : decode (Config.prefixByte :: args) = .ok (i, [])) : ∃ cb, args = [cb] ∧ i = decodeCb cb := by
  match args with
  | [] => cases h; cases hi
  | cb :: rest => cases h; exact ⟨cb, rfl, rfl⟩

end Sys2Proof

namespace Sys2Proof.Machine

/-- The cost of a CB instruction is the one that 0xCB reports for its second byte (R310). -/
theorem instrCycles_decodeCb (cb : Byte) (s : State) : instrCycles (decodeCb cb) s = some (cbCycles cb) := by
  unfold decodeCb cbCycles
  cases operand8 (fieldZ cb) with
  | reg r =>
    cases cbOpOf cb with
    | rot o => cases o <;> rfl
    | bit b | res b | set b => rfl
  | indHL =>
    cases cbOpOf cb with
    | rot o => cases o <;> rfl
    | bit b | res b | set b => rfl

end Sys2Proof.Machine

namespace Sys2Proof.Safety

open Sys2Proof.Machine

/-- A step from `s` is instruction `i` on `u`, then the hook, and the count is that of `i` on `u` (R61). -/
def StepIs (s : State) (i : Instr) (u : State) : Prop :=
  step s = finishStep (exec i u) ∧ stepCycles s = instrCycles i u

variable {s u : State} {i : Instr}

theorem stepIs_of_fetchInstr (h : fetchInstr s = .ok (i, u)) : StepIs s i u := by
  simp only [StepIs, step, stepCycles, h, and_self]

/-- 0xCB and the second byte, fetched, run the instruction that byte selects past both (R61, R221). -/
theorem stepIs_decodeCb {cb : Byte} (hat : HoldsAtPc s [Config.prefixByte, cb]) (hf : Fetchable s 2) :
    StepIs s (decodeCb cb) (advance s 2) := by
  unfold Fetchable at hf
  have hop : read8 s s.pc = Config.prefixByte := read8_pc_of_holdsAtPc hat
  have hcb : read8 s (s.pc + 1#16) = cb :=
    read8_of_holdsAtPc hat (k := 1) (by simp) (by unfold Config.memSize; omega)
  have hpc : s.pc + 1#16 + 1#16 = s.pc + 2#16 := by bv_omega
  have hfetch : fetchInstr s = .ok (.prefixCB, s.setPc (s.pc + 1#16)) := by
    rw [fetchInstr_zero s (by rintro e; simp [e] at hf) (by rw [hop]; rfl), hop]
    rfl
  have hexec : exec .prefixCB (s.setPc (s.pc + 1#16)) = exec (decodeCb cb) (advance s 2) := by
    have hprefix := execPrefixCB_ok (s.setPc (s.pc + 1#16)) (by rw [State.setPc_pc]; bv_omega)
    rw [State.setPc_pc, hpc] at hprefix
    rw [← hcb]
    exact hprefix
  have hcycles : instrCycles .prefixCB (s.setPc (s.pc + 1#16)) = instrCycles (decodeCb cb) (advance s 2) := by
    rw [instrCycles_decodeCb, ← hcb]
    rfl
  obtain ⟨hstep, hcount⟩ := stepIs_of_fetchInstr hfetch
  exact ⟨hstep.trans (congrArg finishStep hexec), hcount.trans hcycles⟩

/-- Bytes at PC that decode to an instruction make the step run it past them. -/
theorem stepIs_of_decode {bytes : List Byte} (hi : i.wellFormed = true) (hdec : decode bytes = .ok (i, []))
    (hat : HoldsAtPc s bytes) (hf : Fetchable s bytes.length) : StepIs s i (advance s bytes.length) := by
  match bytes with
  | [] => cases hdec
  | op :: args =>
    by_cases hp : op = Config.prefixByte
    · subst hp
      obtain ⟨cb, rfl, rfl⟩ := eq_decodeCb_of_decode hi hdec
      exact stepIs_decodeCb hat hf
    · exact stepIs_of_fetchInstr
        (fetchInstr_of_decode hp (operandBytes_eq_length_of_decode hp hdec) hdec hat hf)

theorem stepReport_of_next {t : State} (h : step s = .next t) : stepReport s = .next (t, stepCycles s) := by
  simp only [stepReport, h]

theorem stepReport_of_fault {k : Fault} (h : step s = .fault k) : stepReport s = .fault k := by
  simp only [stepReport, h]

/-- Settles O19: the encoding decodes to the instruction, so the step is its `exec` past the bytes, finished by the hook
or by the fault. -/
theorem stepRunsTheDecodedInstruction : Obligations.StepRunsTheDecodedInstruction := by
  intro s i hi hat hf u
  obtain ⟨hstep, hcount⟩ := stepIs_of_decode hi (decode_encode i) hat hf
  refine ⟨fun t ht => ?_, fun k hk => ?_⟩
  · have hnext : step s = .next (imeHook t) := by rw [hstep, ht, finishStep_next]
    exact ⟨hnext, by rw [stepReport_of_next hnext, hcount]⟩
  · have hfault : step s = .fault k := by rw [hstep, hk, finishStep_fault]
    exact ⟨hfault, stepReport_of_fault hfault⟩

end Sys2Proof.Safety
end

section
/-! PROOFS. The arithmetic helpers (40_arith_helpers.md rules R90 to R93, R96): O9, O11. A sum or difference is read off
one equation on unbounded integers, which balances operands, result and carry. -/

namespace Sys2Proof.Machine

/-! ### Carries as numbers -/

theorem carryIn_eq_toNat (c : Bool) : carryIn c = c.toNat := by cases c <;> rfl

/-- `add8` is `adc8` without a carry in. -/
theorem add8_eq_adc8 (a b : Byte) : add8 a b = adc8 a b false := rfl

/-- `sub8` is `sbc8` without a borrow in. -/
theorem sub8_eq_sbc8 (a b : Byte) : sub8 a b = sbc8 a b false := by
  simp [sub8, sbc8, carryIn]

/-! ### Operands, result and carry balance -/

/-- The result and the carry out together are the whole sum (R91). -/
theorem adc8_balance (a b : Byte) (cin : Bool) :
    (adc8 a b cin).r.toNat + 256 * (adc8 a b cin).c.toNat = a.toNat + b.toNat + cin.toNat := by
  have hcin := cin.toNat_le
  simp only [adc8, carryIn_eq_toNat, BitVec.toNat_ofNat, Bool.toNat, Bool.cond_decide] at hcin ⊢
  split <;> omega

/-- The first operand and the borrow are the result and what was taken away (R93). -/
theorem sbc8_balance (a b : Byte) (cin : Bool) :
    a.toNat + 256 * (sbc8 a b cin).c.toNat = (sbc8 a b cin).r.toNat + b.toNat + cin.toNat := by
  have hcin := cin.toNat_le
  simp only [sbc8, carryIn_eq_toNat, BitVec.toNat_ofInt, Bool.toNat, Bool.cond_decide] at hcin ⊢
  split <;> omega

theorem add8_balance (a b : Byte) : (add8 a b).r.toNat + 256 * (add8 a b).c.toNat = a.toNat + b.toNat :=
  adc8_balance a b false

theorem sub8_balance (a b : Byte) : a.toNat + 256 * (sub8 a b).c.toNat = (sub8 a b).r.toNat + b.toNat := by
  rw [sub8_eq_sbc8]
  exact sbc8_balance a b false

/-! ### Results -/

theorem adc8_r_toNat (a b : Byte) (cin : Bool) :
    (adc8 a b cin).r.toNat = (a.toNat + b.toNat + cin.toNat) % 256 := by
  have hbal := adc8_balance a b cin
  omega

theorem sbc8_r_toNat (a b : Byte) (cin : Bool) :
    (sbc8 a b cin).r.toNat = (a.toNat + 512 - b.toNat - cin.toNat) % 256 := by
  have hbal := sbc8_balance a b cin
  have hcin := cin.toNat_le
  have hc := (sbc8 a b cin).c.toNat_le
  omega

theorem add8_r_toNat (a b : Byte) : (add8 a b).r.toNat = (a.toNat + b.toNat) % 256 := adc8_r_toNat a b false

theorem sub8_r_toNat (a b : Byte) : (sub8 a b).r.toNat = (a.toNat + 256 - b.toNat) % 256 := by
  have hbal := sub8_balance a b
  have hc := (sub8 a b).c.toNat_le
  omega

theorem add16_r_toNat (a b : Word) : (add16 a b).r.toNat = (a.toNat + b.toNat) % 65536 :=
  BitVec.toNat_ofNat _ 16

/-! ### Flags -/

/-- Testing a byte against 0 is testing its number. -/
theorem beq_zero_iff_toNat (r : Byte) : (r == 0#8) = true ↔ r.toNat = 0 := by
  rw [beq_iff_eq, ← BitVec.toNat_inj, BitVec.toNat_ofNat, Nat.zero_mod]

theorem adc8_z_iff (a b : Byte) (cin : Bool) :
    (adc8 a b cin).z = true ↔ (a.toNat + b.toNat + cin.toNat) % 256 = 0 := by
  rw [← adc8_r_toNat]
  exact beq_zero_iff_toNat _

theorem adc8_h_iff (a b : Byte) (cin : Bool) :
    (adc8 a b cin).h = true ↔ 0xF < a.toNat % 16 + b.toNat % 16 + cin.toNat := by
  simp only [adc8, carryIn_eq_toNat, decide_eq_true_eq, gt_iff_lt]

theorem adc8_c_iff (a b : Byte) (cin : Bool) :
    (adc8 a b cin).c = true ↔ 255 < a.toNat + b.toNat + cin.toNat := by
  simp only [adc8, carryIn_eq_toNat, decide_eq_true_eq, gt_iff_lt]

theorem sbc8_z_iff (a b : Byte) (cin : Bool) :
    (sbc8 a b cin).z = true ↔ (a.toNat + 512 - b.toNat - cin.toNat) % 256 = 0 := by
  rw [← sbc8_r_toNat]
  exact beq_zero_iff_toNat _

theorem sbc8_h_iff (a b : Byte) (cin : Bool) :
    (sbc8 a b cin).h = true ↔ a.toNat % 16 < b.toNat % 16 + cin.toNat := by
  simp only [sbc8, carryIn_eq_toNat, decide_eq_true_eq, gt_iff_lt]

theorem sbc8_c_iff (a b : Byte) (cin : Bool) :
    (sbc8 a b cin).c = true ↔ a.toNat < b.toNat + cin.toNat := by
  simp only [sbc8, carryIn_eq_toNat, decide_eq_true_eq, gt_iff_lt]

theorem add8_z_iff (a b : Byte) : (add8 a b).z = true ↔ (a.toNat + b.toNat) % 256 = 0 := adc8_z_iff a b false

theorem add8_h_iff (a b : Byte) : (add8 a b).h = true ↔ 0xF < a.toNat % 16 + b.toNat % 16 := adc8_h_iff a b false

theorem add8_c_iff (a b : Byte) : (add8 a b).c = true ↔ 255 < a.toNat + b.toNat := adc8_c_iff a b false

/-- The difference is 0 only for equal operands. -/
theorem sub8_z_iff (a b : Byte) : (sub8 a b).z = true ↔ a = b := by
  have hbal := sub8_balance a b
  have hz : (sub8 a b).z = true ↔ (sub8 a b).r.toNat = 0 := beq_zero_iff_toNat _
  rw [hz, ← BitVec.toNat_inj]
  omega

theorem sub8_h_iff (a b : Byte) : (sub8 a b).h = true ↔ a.toNat % 16 < b.toNat % 16 := decide_eq_true_iff

theorem sub8_c_iff (a b : Byte) : (sub8 a b).c = true ↔ a.toNat < b.toNat := decide_eq_true_iff

theorem add16_h_iff (a b : Word) : (add16 a b).h = true ↔ 0x0FFF < a.toNat % 4096 + b.toNat % 4096 :=
  decide_eq_true_iff

theorem add16_c_iff (a b : Word) : (add16 a b).c = true ↔ 65535 < a.toNat + b.toNat := decide_eq_true_iff

/-- Settles O9: each result from its balance, each flag from its own test. -/
theorem additionAndSubtractionHelpers : Obligations.AdditionAndSubtractionHelpers :=
  ⟨fun a b => ⟨add8_r_toNat a b, add8_z_iff a b, rfl, add8_h_iff a b, add8_c_iff a b⟩,
    fun a b cin => ⟨adc8_r_toNat a b cin, adc8_z_iff a b cin, rfl, adc8_h_iff a b cin, adc8_c_iff a b cin⟩,
    fun a b => ⟨sub8_r_toNat a b, sub8_z_iff a b, rfl, sub8_h_iff a b, sub8_c_iff a b⟩,
    fun a b cin => ⟨sbc8_r_toNat a b cin, sbc8_z_iff a b cin, rfl, sbc8_h_iff a b cin, sbc8_c_iff a b cin⟩,
    fun a b => ⟨add16_r_toNat a b, add16_h_iff a b, add16_c_iff a b⟩⟩

/-! ### Chains of two bytes -/

/-- ADD on the low bytes, then ADC on the high bytes, is ADD on the words: the two balances add up to the 16-bit sum. -/
theorem add8_adc8_chain (x y : Word) :
    let lo := add8 (loByte x) (loByte y)
    let hi := adc8 (hiByte x) (hiByte y) lo.c
    leWord lo.r hi.r = (add16 x y).r ∧ hi.h = (add16 x y).h ∧ hi.c = (add16 x y).c := by
  intro lo hi
  have hlo : lo.r.toNat + 256 * lo.c.toNat = x.toNat % 256 + y.toNat % 256 := by
    rw [← loByte_toNat, ← loByte_toNat]
    exact add8_balance (loByte x) (loByte y)
  have hhi : hi.r.toNat + 256 * hi.c.toNat = x.toNat / 256 + y.toNat / 256 + lo.c.toNat := by
    rw [← hiByte_toNat, ← hiByte_toNat]
    exact adc8_balance (hiByte x) (hiByte y) lo.c
  refine ⟨?_, ?_, ?_⟩
  · apply BitVec.eq_of_toNat_eq
    rw [leWord_toNat, add16_r_toNat]
    omega
  · rw [Bool.eq_iff_iff, adc8_h_iff, add16_h_iff, hiByte_toNat, hiByte_toNat]
    omega
  · rw [Bool.eq_iff_iff, adc8_c_iff, add16_c_iff, hiByte_toNat, hiByte_toNat]
    omega

/-- SUB on the low bytes, then SBC on the high bytes, is the 16-bit difference: the two balances add up to it. -/
theorem sub8_sbc8_chain (x y : Word) :
    let lo := sub8 (loByte x) (loByte y)
    let hi := sbc8 (hiByte x) (hiByte y) lo.c
    leWord lo.r hi.r = x - y ∧ (hi.c = true ↔ x < y) := by
  intro lo hi
  have hlo : x.toNat % 256 + 256 * lo.c.toNat = lo.r.toNat + y.toNat % 256 := by
    rw [← loByte_toNat, ← loByte_toNat]
    exact sub8_balance (loByte x) (loByte y)
  have hhi : x.toNat / 256 + 256 * hi.c.toNat = hi.r.toNat + y.toNat / 256 + lo.c.toNat := by
    rw [← hiByte_toNat, ← hiByte_toNat]
    exact sbc8_balance (hiByte x) (hiByte y) lo.c
  refine ⟨?_, ?_⟩
  · apply BitVec.eq_of_toNat_eq
    rw [leWord_toNat, BitVec.toNat_sub]
    omega
  · rw [sbc8_c_iff, hiByte_toNat, hiByte_toNat, BitVec.lt_def]
    omega

/-- Settles O11: the two chains. -/
theorem carryChainsMakeWordArithmetic : Obligations.CarryChainsMakeWordArithmetic :=
  fun x y => ⟨add8_adc8_chain x y, sub8_sbc8_chain x y⟩

end Sys2Proof.Machine
end

section
/-! PROOFS. Decimal adjust (40_arith_helpers.md rule R101): O13. -/

namespace Sys2Proof.Machine

/-! ### DAA on every input -/

/-- The two corrections lie in different nibbles, so joining them is adding them. -/
theorem toNat_join_corrections (low high : Bool) :
    ((if low then 0x06#8 else 0x00#8) ||| (if high then 0x60#8 else 0x00#8)).toNat =
      (if low = true then 0x06 else 0) + (if high = true then 0x60 else 0) := by
  revert low high
  decide

/-- After an addition the tests look at the flags and at the accumulator. -/
theorem daaAdjust_add_toNat (a : Byte) (h c : Bool) :
    (daaAdjust a false h c).toNat =
      (if h = true ∨ 9 < a.toNat % 16 then 0x06 else 0) + (if c = true ∨ 0x99 < a.toNat then 0x60 else 0) := by
  refine (toNat_join_corrections _ _).trans ?_
  simp

/-- After a subtraction they look at the flags alone. -/
theorem daaAdjust_sub_toNat (a : Byte) (h c : Bool) :
    (daaAdjust a true h c).toNat = (if h = true then 0x06 else 0) + (if c = true then 0x60 else 0) :=
  toNat_join_corrections h c

theorem daa_add_r_toNat (a : Byte) (h c : Bool) :
    (daa a false h c).r.toNat = (a.toNat + ((if h = true ∨ 9 < a.toNat % 16 then 0x06 else 0) +
      (if c = true ∨ 0x99 < a.toNat then 0x60 else 0))) % 256 := by
  rw [← daaAdjust_add_toNat]
  exact BitVec.toNat_add a (daaAdjust a false h c)

theorem daa_sub_r_toNat (a : Byte) (h c : Bool) :
    (daa a true h c).r.toNat =
      (a.toNat + 256 - ((if h = true then 0x06 else 0) + (if c = true then 0x60 else 0))) % 256 := by
  have hr : (daa a true h c).r.toNat = (256 - (daaAdjust a true h c).toNat + a.toNat) % 256 :=
    BitVec.toNat_sub a (daaAdjust a true h c)
  rw [hr, ← daaAdjust_sub_toNat a]
  omega

theorem daa_z_iff (a : Byte) (n h c : Bool) : (daa a n h c).z = true ↔ (daa a n h c).r = 0#8 := beq_iff_eq

theorem daa_add_c_iff (a : Byte) (h c : Bool) : (daa a false h c).c = true ↔ c = true ∨ 0x99 < a.toNat := by
  simp [daa]

theorem daa_sub_c (a : Byte) (h c : Bool) : (daa a true h c).c = c := rfl

/-! ### DAA on decimal numbers -/

/-- The two decimal digits of a number below 100, one in each nibble. -/
def decimalByte (n : Nat) : Byte := BitVec.ofNat 8 (16 * (n / 10) + n % 10)

theorem decimalByte_toNat {n : Nat} (hn : n < 100) : (decimalByte n).toNat = 16 * (n / 10) + n % 10 := by
  rw [decimalByte, BitVec.toNat_ofNat]
  omega

theorem decimalByte_lowNibble {n : Nat} (hn : n < 100) : (decimalByte n).toNat % 16 = n % 10 := by
  rw [decimalByte_toNat hn]
  omega

/-- Digit sums taken as nibbles pass 0x99 exactly when they make 100: the tens decide, unless they make 9. -/
theorem nibbles_pass_99_iff (tens ones : Nat) (hones : ones ≤ 18) :
    (255 < 16 * tens + ones ∨ 0x99 < (16 * tens + ones) % 256) ↔ 100 ≤ 10 * tens + ones := by
  rcases Nat.lt_trichotomy tens 9 with htens | rfl | htens <;> omega

section
variable {x y : Nat} (hx : x < 100) (hy : y < 100)
include hx hy

/-- After adding decimal bytes DAA corrects the low digit when the low digits carry, and the high digit, which sets C,
when the numbers carry. -/
theorem daa_add8_decimalByte :
    let sum := add8 (decimalByte x) (decimalByte y)
    (daa sum.r sum.n sum.h sum.c).r = decimalByte ((x + y) % 100) ∧
    ((daa sum.r sum.n sum.h sum.c).c = true ↔ 100 ≤ x + y) := by
  intro sum
  have hr : sum.r.toNat = _ := add8_r_toNat (decimalByte x) (decimalByte y)
  have hh : sum.h = true ↔ _ := add8_h_iff (decimalByte x) (decimalByte y)
  have hc : sum.c = true ↔ _ := add8_c_iff (decimalByte x) (decimalByte y)
  rw [decimalByte_lowNibble hx, decimalByte_lowNibble hy] at hh
  rw [decimalByte_toNat hx, decimalByte_toNat hy] at hr hc
  have hlow : (sum.h = true ∨ 9 < sum.r.toNat % 16) ↔ 10 ≤ x % 10 + y % 10 := by
    rw [hh]
    omega
  have hhigh : (sum.c = true ∨ 0x99 < sum.r.toNat) ↔ 100 ≤ x + y := by
    have hpass := nibbles_pass_99_iff (x / 10 + y / 10) (x % 10 + y % 10) (by omega)
    rw [hc, hr]
    omega
  refine ⟨?_, (daa_add_c_iff sum.r sum.h sum.c).trans hhigh⟩
  apply BitVec.eq_of_toNat_eq
  have hdaa : (daa sum.r sum.n sum.h sum.c).r.toNat = _ := daa_add_r_toNat sum.r sum.h sum.c
  rw [hdaa, decimalByte_toNat (Nat.mod_lt _ (by decide))]
  simp only [hlow, hhigh]
  split <;> split <;> omega

/-- After subtracting decimal bytes DAA corrects the low digit when the low digits borrow, and the high digit when the
numbers borrow, which C keeps. -/
theorem daa_sub8_decimalByte :
    let diff := sub8 (decimalByte x) (decimalByte y)
    (daa diff.r diff.n diff.h diff.c).r = decimalByte ((x + 100 - y) % 100) ∧
    ((daa diff.r diff.n diff.h diff.c).c = true ↔ x < y) := by
  intro diff
  have hr : diff.r.toNat = _ := sub8_r_toNat (decimalByte x) (decimalByte y)
  have hlow : diff.h = true ↔ _ := sub8_h_iff (decimalByte x) (decimalByte y)
  have hc : diff.c = true ↔ _ := sub8_c_iff (decimalByte x) (decimalByte y)
  rw [decimalByte_lowNibble hx, decimalByte_lowNibble hy] at hlow
  rw [decimalByte_toNat hx, decimalByte_toNat hy] at hr hc
  have hhigh : diff.c = true ↔ x < y := hc.trans (by omega)
  refine ⟨?_, hhigh⟩
  apply BitVec.eq_of_toNat_eq
  have hdaa : (daa diff.r diff.n diff.h diff.c).r.toNat = _ := daa_sub_r_toNat diff.r diff.h diff.c
  rw [hdaa, decimalByte_toNat (Nat.mod_lt _ (by decide))]
  simp only [hlow, hhigh]
  split <;> split <;> omega

end

/-- Settles O13: the corrections on every input, and what they make of decimal sums and differences. -/
theorem daaMakesDecimalArithmetic : Obligations.DaaMakesDecimalArithmetic := by
  refine ⟨fun a h c => ?_, fun a h c => ?_, fun x y hx hy => ?_⟩
  · exact ⟨daa_add_r_toNat a h c, daa_z_iff a false h c, rfl, rfl, daa_add_c_iff a h c⟩
  · exact ⟨daa_sub_r_toNat a h c, daa_z_iff a true h c, rfl, rfl, daa_sub_c a h c⟩
  · obtain ⟨hsum, hcarry⟩ := daa_add8_decimalByte hx hy
    obtain ⟨hdiff, hborrow⟩ := daa_sub8_decimalByte hx hy
    exact ⟨hsum, hcarry, hdiff, hborrow⟩

end Sys2Proof.Machine
end

section
/-! PROOFS. Rotates and shifts, bit by bit (40_arith_helpers.md rule R100): O12. -/

namespace Sys2Proof.Machine

/-! ### Where each bit of a shifted byte comes from -/

/-- Bits 6:0 moved up by one, `b` below them. -/
theorem getLsbD_low7_append (v : Byte) (b : Bool) (i : Nat) (hi : i < 8) :
    (low7 v ++ BitVec.ofBool b).getLsbD i = if i = 0 then b else v.getLsbD (i - 1) := by
  rw [BitVec.getLsbD_append]
  rcases Nat.eq_zero_or_pos i with rfl | hpos
  · simp
  · have hlt : i - 1 < 7 := by omega
    simp [low7, hlt, Nat.not_lt.mpr hpos, Nat.ne_of_gt hpos]

/-- Bits 7:1 moved down by one, `b` above them. -/
theorem getLsbD_append_high7 (v : Byte) (b : Bool) (i : Nat) (hi : i < 8) :
    (BitVec.ofBool b ++ high7 v).getLsbD i = if i = 7 then b else v.getLsbD (i + 1) := by
  rw [BitVec.getLsbD_append]
  rcases Nat.lt_or_eq_of_le (Nat.le_of_lt_succ hi) with hlt | rfl
  · simp [high7, hlt, Nat.ne_of_lt hlt, Nat.add_comm]
  · simp

theorem getLsbD_rlc (v : Byte) (i : Nat) (hi : i < 8) : (rlc v).r.getLsbD i = v.getLsbD ((i + 7) % 8) := by
  rw [rlc, getLsbD_low7_append v _ i hi]
  split
  · next h => rw [h]
  · next h => rw [show (i + 7) % 8 = i - 1 by omega]

theorem getLsbD_rrc (v : Byte) (i : Nat) (hi : i < 8) : (rrc v).r.getLsbD i = v.getLsbD ((i + 1) % 8) := by
  rw [rrc, getLsbD_append_high7 v _ i hi]
  split
  · next h => rw [h]
  · next h => rw [show (i + 1) % 8 = i + 1 by omega]

/-- The nibbles exchanged: each bit moves four places around. -/
theorem getLsbD_swap (v : Byte) (i : Nat) (hi : i < 8) : (swap v).r.getLsbD i = v.getLsbD ((i + 4) % 8) := by
  rw [swap, BitVec.getLsbD_append]
  by_cases hlow : i < 4
  · rw [show (i + 4) % 8 = i + 4 by omega]
    simp [hlow, Nat.add_comm]
  · rw [show (i + 4) % 8 = i - 4 by omega]
    have hlt : i - 4 < 4 := by omega
    simp [hlow, hlt]

/-- Settles O12: the rotates and shifts to the left and to the right each move every bit by one place and differ in the
bit they let in. -/
theorem rotatesMoveEveryBit : Obligations.RotatesMoveEveryBit :=
  fun v cin =>
    ⟨getLsbD_rlc v, rfl, getLsbD_rrc v, rfl,
      getLsbD_low7_append v cin, rfl, getLsbD_append_high7 v cin, rfl,
      getLsbD_low7_append v false, rfl, getLsbD_append_high7 v (v.getLsbD 7), rfl,
      getLsbD_swap v, rfl, getLsbD_append_high7 v false, rfl⟩

end Sys2Proof.Machine
end

section
/-! PROOFS. Comparing (40_arith_helpers.md rule R99, 43_group2.md rules R174, R175, 44_group3_data.md rule R187): O51. -/

namespace Sys2Proof.Machine

/-! ### The arms -/

theorem exec_cpR8 (r : R8) (s : State) : exec (.cpR8 r) s = commitCompare (sub8 s.a (s.getR8 r)) s := rfl

theorem exec_cpHl (s : State) : exec .cpHl s = commitCompare (sub8 s.a (read8 s s.hl)) s := rfl

theorem exec_cpN8 (n8 : Byte) (s : State) : exec (.cpN8 n8) s = commitCompare (sub8 s.a n8) s := rfl

end Sys2Proof.Machine

namespace Sys2Proof.Safety

open Sys2Proof.Machine

/-! ### Fetching -/

/-- An instruction outside Group CB is fetched from its encoding, which decodes to it. -/
theorem fetchedFrom_of_encode {i : Instr} {op : Byte} {args : List Byte} (hp : op ≠ Config.prefixByte)
    (henc : encode i = op :: args) : FetchedFrom i (op :: args) := by
  have hdec := decode_encode i
  rw [henc] at hdec
  exact fetchedFrom_of_decode hp (operandBytes_eq_length_of_decode hp hdec) henc hdec

theorem fetchedFrom_cpR8 (r : R8) : FetchedFrom (.cpR8 r) [0b10111#5 ++ r8Code r] :=
  fetchedFrom_of_encode (by cases r <;> decide) (by cases r <;> rfl)

theorem fetchedFrom_cpHl : FetchedFrom .cpHl [0xBE#8] := fetchedFrom_of_encode (by decide) rfl

theorem fetchedFrom_cpN8 (n8 : Byte) : FetchedFrom (.cpN8 n8) [0xFE#8, n8] := fetchedFrom_of_encode (by decide) rfl

/-! ### The flags of a difference are comparisons (R99) -/

/-- The end of CP: the flags compare A with the operand, and nothing else is written. -/
theorem commitCompare_sub8 {i : Instr} {s : State} {x : Byte} (hexec : exec i s = commitCompare (sub8 s.a x) s) :
    ∃ t, exec i s = .next t ∧
      t.f = packFlags (decide (s.a = x)) true (decide (s.a.toNat % 16 < x.toNat % 16)) (decide (s.a < x)) ∧
      SameExcept [.f] s t := by
  have hz : (sub8 s.a x).z = decide (s.a = x) := by rw [Bool.eq_iff_iff, sub8_z_iff, decide_eq_true_iff]
  have hh : (sub8 s.a x).h = decide (s.a.toNat % 16 < x.toNat % 16) := by
    rw [Bool.eq_iff_iff, sub8_h_iff, decide_eq_true_iff]
  have hc : (sub8 s.a x).c = decide (s.a < x) := by
    rw [Bool.eq_iff_iff, sub8_c_iff, decide_eq_true_iff, BitVec.lt_def]
  obtain ⟨t, ht⟩ : ∃ t, exec i s = .next t := ⟨_, hexec⟩
  obtain ⟨hf, hframe⟩ := commitCompare_next (hexec.symm.trans ht)
  rw [hz, hh, hc] at hf
  exact ⟨t, ht, hf, hframe⟩

/-- Settles O51: the three forms end alike, on three operands. -/
theorem compareWritesFlagsOnly : Obligations.CompareWritesFlagsOnly :=
  ⟨fetchedFrom_cpR8, fetchedFrom_cpHl, fetchedFrom_cpN8, fun s r n8 =>
    ⟨commitCompare_sub8 (exec_cpR8 r s), rfl, commitCompare_sub8 (exec_cpHl s), rfl,
      commitCompare_sub8 (exec_cpN8 n8 s), rfl⟩⟩

end Sys2Proof.Safety
end

section
/-! PROOFS. 8-bit loads, indirect accumulator loads, ADD HL,r16, 8-bit INC and DEC (41_group0.md rules R112 to R119,
R123 to R129, 42_group1.md rules R150 to R152): O35, O36, O44, O46. -/

namespace Sys2Proof

/-- Only an opcode of Group 3 can be the prefix byte. -/
theorem opXyz_ne_prefixByte {x : BitVec 2} (y z : BitVec 3) (hx : x ≠ 0b11#2) :
    opXyz x y z ≠ Config.prefixByte := by
  intro h
  have hfield : fieldX (opXyz x y z) = fieldX Config.prefixByte := congrArg fieldX h
  rw [fieldX_opXyz] at hfield
  exact hx hfield

end Sys2Proof

namespace Sys2Proof.Machine

/-! ### The arms of the loads -/

theorem exec_ldR8R8 (dst src : R8) (s : State) : exec (.ldR8R8 dst src) s = .next (s.putR8 dst (s.getR8 src)) := rfl

theorem exec_ldR8Hl (dst : R8) (s : State) : exec (.ldR8Hl dst) s = .next (s.putR8 dst (read8 s s.hl)) := rfl

theorem exec_ldHlR8 (src : R8) (s : State) : exec (.ldHlR8 src) s = .next (write8 s s.hl (s.getR8 src)) := rfl

theorem exec_ldR8N8 (dst : R8) (n8 : Byte) (s : State) : exec (.ldR8N8 dst n8) s = .next (s.putR8 dst n8) := rfl

theorem exec_ldHlN8 (n8 : Byte) (s : State) : exec (.ldHlN8 n8) s = .next (write8 s s.hl n8) := rfl

theorem exec_ldBcA (s : State) : exec .ldBcA s = .next (write8 s s.bc s.a) := rfl

theorem exec_ldDeA (s : State) : exec .ldDeA s = .next (write8 s s.de s.a) := rfl

theorem exec_ldHliA (s : State) : exec .ldHliA s = .next ((write8 s s.hl s.a).setHl (s.hl + 1#16)) := rfl

theorem exec_ldHldA (s : State) : exec .ldHldA s = .next ((write8 s s.hl s.a).setHl (s.hl - 1#16)) := rfl

theorem exec_ldABc (s : State) : exec .ldABc s = .next (s.setA (read8 s s.bc)) := rfl

theorem exec_ldADe (s : State) : exec .ldADe s = .next (s.setA (read8 s s.de)) := rfl

theorem exec_ldAHli (s : State) : exec .ldAHli s = .next ((s.setA (read8 s s.hl)).setHl (s.hl + 1#16)) := rfl

theorem exec_ldAHld (s : State) : exec .ldAHld s = .next ((s.setA (read8 s s.hl)).setHl (s.hl - 1#16)) := rfl

/-! ### The arms of the arithmetic -/

theorem exec_addHlR16 (rr : R16) (s : State) :
    exec (.addHlR16 rr) s = .next ((s.setHl (add16 s.hl (s.getR16 rr)).r).setFlags s.flagZ false
      (add16 s.hl (s.getR16 rr)).h (add16 s.hl (s.getR16 rr)).c) := rfl

theorem exec_incR8 (r : R8) (s : State) : exec (.incR8 r) s = commitStep8 (.reg r) (inc8 (s.getR8 r)) s := rfl

theorem exec_decR8 (r : R8) (s : State) : exec (.decR8 r) s = commitStep8 (.reg r) (dec8 (s.getR8 r)) s := rfl

theorem exec_incHl (s : State) : exec .incHl s = commitStep8 .indHL (inc8 (read8 s s.hl)) s := rfl

theorem exec_decHl (s : State) : exec .decHl s = commitStep8 .indHL (dec8 (read8 s s.hl)) s := rfl

/-! ### HL moved by one (R12) -/

theorem hl_setHl_add_one_toNat (s : State) (w : Word) : (s.setHl (w + 1#16)).hl.toNat = (w.toNat + 1) % 65536 := by
  rw [State.hl_setHl, BitVec.toNat_add]
  rfl

theorem hl_setHl_sub_one_toNat (s : State) (w : Word) :
    (s.setHl (w - 1#16)).hl.toNat = (w.toNat + 65535) % 65536 := by
  rw [State.hl_setHl, BitVec.toNat_sub, Nat.add_comm]
  rfl

end Sys2Proof.Machine

namespace Sys2Proof.Safety

open Sys2Proof.Machine

/-! ### Fetching -/

theorem fetchedFrom_ldR8R8 (dst src : R8) : FetchedFrom (.ldR8R8 dst src) [0b01#2 ++ r8Code dst ++ r8Code src] :=
  fetchedFrom_of_encode (opXyz_ne_prefixByte (r8Code dst) (r8Code src) (by decide)) rfl

theorem fetchedFrom_ldR8Hl (dst : R8) : FetchedFrom (.ldR8Hl dst) [0b01#2 ++ r8Code dst ++ 0b110#3] :=
  fetchedFrom_of_encode (opXyz_ne_prefixByte (r8Code dst) 0b110#3 (by decide)) rfl

theorem fetchedFrom_ldHlR8 (src : R8) : FetchedFrom (.ldHlR8 src) [0b01110#5 ++ r8Code src] :=
  fetchedFrom_of_encode (by cases src <;> decide) (by cases src <;> rfl)

theorem fetchedFrom_ldR8N8 (dst : R8) (n8 : Byte) :
    FetchedFrom (.ldR8N8 dst n8) [0b00#2 ++ r8Code dst ++ 0b110#3, n8] :=
  fetchedFrom_of_encode (opXyz_ne_prefixByte (r8Code dst) 0b110#3 (by decide)) rfl

theorem fetchedFrom_ldHlN8 (n8 : Byte) : FetchedFrom (.ldHlN8 n8) [0x36#8, n8] :=
  fetchedFrom_of_encode (by decide) rfl

theorem fetchedFrom_addHlR16 (rr : R16) : FetchedFrom (.addHlR16 rr) [0b00#2 ++ r16Code rr ++ 0b1001#4] :=
  fetchedFrom_of_encode (by cases rr <;> decide) (by cases rr <;> rfl)

theorem fetchedFrom_incR8 (r : R8) : FetchedFrom (.incR8 r) [0b00#2 ++ r8Code r ++ 0b100#3] :=
  fetchedFrom_of_encode (opXyz_ne_prefixByte (r8Code r) 0b100#3 (by decide)) rfl

theorem fetchedFrom_decR8 (r : R8) : FetchedFrom (.decR8 r) [0b00#2 ++ r8Code r ++ 0b101#3] :=
  fetchedFrom_of_encode (opXyz_ne_prefixByte (r8Code r) 0b101#3 (by decide)) rfl

/-! ### What the families of instructions end in -/

section
variable {i : Instr} {s : State}

/-- A load into a register. -/
theorem loaded_of_putR8 {r : R8} {v : Byte} (hexec : exec i s = .next (s.putR8 r v)) :
    ∃ t, exec i s = .next t ∧ t.getR8 r = v ∧ SameExcept [.r8 r] s t :=
  ⟨_, hexec, by simp, sameExcept_putR8 s r v⟩

/-- A store of one byte. -/
theorem stored_of_write8 {addr : Word} {v : Byte} (hexec : exec i s = .next (write8 s addr v)) :
    ∃ t, exec i s = .next t ∧ read8 t addr = v ∧ SameExcept [.bytes addr 1] s t :=
  ⟨_, hexec, byteWriteChangesOneByte s addr v⟩

/-- INC or DEC of a register. -/
theorem steppedR8_of_commitStep8 {r : R8} {x : Step8} (hexec : exec i s = commitStep8 (.reg r) x s) :
    ∃ t, exec i s = .next t ∧ SteppedR8 r x s t :=
  ⟨_, hexec, by simp [writeOperand8], commitStep8_next rfl⟩

/-- INC or DEC of the byte at HL. -/
theorem steppedHl_of_commitStep8 {x : Step8} (hexec : exec i s = commitStep8 .indHL x s) :
    ∃ t, exec i s = .next t ∧ SteppedHl x s t :=
  ⟨_, hexec, (byteWriteChangesOneByte s s.hl x.r).1, commitStep8_next rfl⟩

end

/-- A write of HL after a write of the part `p`. -/
theorem SameExcept.setHl {p : Part} {s t : State} (h : SameExcept [p] s t) (w : Word) :
    SameExcept (p :: hlParts) s (t.setHl w) :=
  (h.mono (by simp)).trans ((sameExcept_setHl t w).mono fun _ => List.mem_cons_of_mem p)

/-! ### The obligations -/

/-- Settles O35: every load is a write of one register or of the byte at HL. -/
theorem eightBitLoads : Obligations.EightBitLoads :=
  ⟨fetchedFrom_ldR8R8, fetchedFrom_ldR8Hl, fetchedFrom_ldHlR8, fetchedFrom_ldR8N8, fetchedFrom_ldHlN8,
    fun s dst src n8 =>
      ⟨loaded_of_putR8 (exec_ldR8R8 dst src s), rfl, loaded_of_putR8 (exec_ldR8Hl dst s), rfl,
        stored_of_write8 (exec_ldHlR8 src s), rfl, loaded_of_putR8 (exec_ldR8N8 dst n8 s), rfl,
        stored_of_write8 (exec_ldHlN8 n8 s), rfl⟩⟩

/-- Settles O36: a load of A or a store of it, and for `[HL+]` and `[HL-]` a write of HL after it, which touches neither
A nor memory. -/
theorem indirectAccumulatorLoads : Obligations.IndirectAccumulatorLoads := by
  refine ⟨fetchedFrom_of_encode (by decide) rfl, fetchedFrom_of_encode (by decide) rfl,
    fetchedFrom_of_encode (by decide) rfl, fetchedFrom_of_encode (by decide) rfl,
    fetchedFrom_of_encode (by decide) rfl, fetchedFrom_of_encode (by decide) rfl,
    fetchedFrom_of_encode (by decide) rfl, fetchedFrom_of_encode (by decide) rfl, fun s => ?_⟩
  obtain ⟨hread, hstore⟩ := byteWriteChangesOneByte s s.hl s.a
  have hload := sameExcept_setA s (read8 s s.hl)
  exact ⟨stored_of_write8 (exec_ldBcA s), stored_of_write8 (exec_ldDeA s),
    ⟨_, exec_ldHliA s, hread, hl_setHl_add_one_toNat _ s.hl, hstore.setHl _⟩,
    ⟨_, exec_ldHldA s, hread, hl_setHl_sub_one_toNat _ s.hl, hstore.setHl _⟩,
    loaded_of_putR8 (r := .a) (exec_ldABc s), loaded_of_putR8 (r := .a) (exec_ldADe s),
    ⟨_, exec_ldAHli s, rfl, hl_setHl_add_one_toNat _ s.hl, hload.setHl _⟩,
    ⟨_, exec_ldAHld s, rfl, hl_setHl_sub_one_toNat _ s.hl, hload.setHl _⟩,
    fun i hi => by fin_cases hi <;> rfl⟩

/-- Settles O44: HL and the flags H and C are what `add16` gives of the old HL and the operand. -/
theorem addToHl : Obligations.AddToHl := by
  refine ⟨fetchedFrom_addHlR16, fun s rr => ⟨?_, rfl⟩⟩
  have hsum : (s.setHl (add16 s.hl (s.getR16 rr)).r).hl.toNat = (s.hl.toNat + (s.getR16 rr).toNat) % 65536 := by
    rw [State.hl_setHl, add16_r_toNat]
  have hhl := (sameExcept_setHl s (add16 s.hl (s.getR16 rr)).r).mono fun _ => List.mem_cons_of_mem Part.f
  exact ⟨_, exec_addHlR16 rr s, hsum, rfl, hhl.trans ((sameExcept_setFlags _ _ _ _ _).mono (by simp))⟩

/-- Settles O46: the register forms end alike, and so do the forms on the byte at HL. -/
theorem eightBitIncrementAndDecrement : Obligations.EightBitIncrementAndDecrement :=
  ⟨fun r => ⟨fetchedFrom_incR8 r, fetchedFrom_decR8 r⟩, fetchedFrom_of_encode (by decide) rfl,
    fetchedFrom_of_encode (by decide) rfl, fun s r =>
      ⟨steppedR8_of_commitStep8 (exec_incR8 r s), rfl, steppedR8_of_commitStep8 (exec_decR8 r s), rfl,
        steppedHl_of_commitStep8 (exec_incHl s), rfl, steppedHl_of_commitStep8 (exec_decHl s), rfl⟩⟩

end Sys2Proof.Safety
end

section
/-! PROOFS. ADD, ADC, SUB and SBC of a register and of the byte at HL (43_group2.md rules R160 to R167): O47, O48. -/

namespace Sys2Proof.Machine

/-! ### The arms -/

theorem exec_addAR8 (r : R8) (s : State) : exec (.addAR8 r) s = commitAlu (add8 s.a (s.getR8 r)) s := rfl

theorem exec_adcAR8 (r : R8) (s : State) : exec (.adcAR8 r) s = commitAlu (adc8 s.a (s.getR8 r) s.flagC) s := rfl

theorem exec_subR8 (r : R8) (s : State) : exec (.subR8 r) s = commitAlu (sub8 s.a (s.getR8 r)) s := rfl

theorem exec_sbcAR8 (r : R8) (s : State) : exec (.sbcAR8 r) s = commitAlu (sbc8 s.a (s.getR8 r) s.flagC) s := rfl

theorem exec_addAHl (s : State) : exec .addAHl s = commitAlu (add8 s.a (read8 s s.hl)) s := rfl

theorem exec_adcAHl (s : State) : exec .adcAHl s = commitAlu (adc8 s.a (read8 s s.hl) s.flagC) s := rfl

theorem exec_subHl (s : State) : exec .subHl s = commitAlu (sub8 s.a (read8 s s.hl)) s := rfl

theorem exec_sbcAHl (s : State) : exec .sbcAHl s = commitAlu (sbc8 s.a (read8 s s.hl) s.flagC) s := rfl

end Sys2Proof.Machine

namespace Sys2Proof.Safety

open Sys2Proof.Machine

/-! ### Fetching: all of Group 2 at once (R74) -/

/-- A register row of Group 2, its two leading fields written as one. -/
theorem fetchedFrom_aluRegInstr (o : AluOp) {xy : BitVec 5} (hxy : 0b10#2 ++ aluCode o = xy) (r : R8) :
    FetchedFrom (aluRegInstr o r) [xy ++ r8Code r] := by
  subst hxy
  have henc : encode (aluRegInstr o r) = [opXyz 0b10#2 (aluCode o) (r8Code r)] := by cases o <;> rfl
  exact fetchedFrom_of_encode (opXyz_ne_prefixByte (aluCode o) (r8Code r) (by decide)) henc

/-- A `[HL]` row of Group 2. -/
theorem fetchedFrom_aluHlInstr (o : AluOp) : FetchedFrom (aluHlInstr o) [opXyz 0b10#2 (aluCode o) indHlCode] := by
  have henc : encode (aluHlInstr o) = [opXyz 0b10#2 (aluCode o) indHlCode] := by cases o <;> rfl
  exact fetchedFrom_of_encode (opXyz_ne_prefixByte (aluCode o) indHlCode (by decide)) henc

/-! ### What the family ends in -/

/-- An instruction that ends in `commitAlu` leaves its helper's result in A and its flags in F. -/
theorem accumulated_of_commitAlu {i : Instr} {s : State} {x : Alu8} (hexec : exec i s = commitAlu x s) :
    ∃ t, exec i s = .next t ∧ Accumulated x s t :=
  ⟨_, hexec, commitAlu_next rfl⟩

/-! ### The obligations -/

/-- Settles O47: the four end alike, on four helpers' results. -/
theorem arithmeticWithARegister : Obligations.ArithmeticWithARegister :=
  ⟨fetchedFrom_aluRegInstr .add rfl, fetchedFrom_aluRegInstr .adc rfl, fetchedFrom_aluRegInstr .sub rfl,
    fetchedFrom_aluRegInstr .sbc rfl, fun s r =>
      ⟨accumulated_of_commitAlu (exec_addAR8 r s), rfl, accumulated_of_commitAlu (exec_adcAR8 r s), rfl,
        accumulated_of_commitAlu (exec_subR8 r s), rfl, accumulated_of_commitAlu (exec_sbcAR8 r s), rfl⟩⟩

/-- Settles O48: as for a register, with the byte at HL as the operand. -/
theorem arithmeticWithTheByteAtHl : Obligations.ArithmeticWithTheByteAtHl :=
  ⟨fetchedFrom_aluHlInstr .add, fetchedFrom_aluHlInstr .adc, fetchedFrom_aluHlInstr .sub, fetchedFrom_aluHlInstr .sbc,
    fun s =>
      ⟨accumulated_of_commitAlu (exec_addAHl s), rfl, accumulated_of_commitAlu (exec_adcAHl s), rfl,
        accumulated_of_commitAlu (exec_subHl s), rfl, accumulated_of_commitAlu (exec_sbcAHl s), rfl⟩⟩

end Sys2Proof.Safety
end

section
/-! PROOFS. ADD, ADC, SUB and SBC of an immediate, the absolute accumulator loads, PUSH and POP (44_group3_data.md rules
R180 to R183, R188, R190, R191, R194, R197): O40, O41, O49. -/

namespace Sys2Proof.Machine

/-! ### The arms -/

theorem exec_addAN8 (n8 : Byte) (s : State) : exec (.addAN8 n8) s = commitAlu (add8 s.a n8) s := rfl

theorem exec_adcAN8 (n8 : Byte) (s : State) : exec (.adcAN8 n8) s = commitAlu (adc8 s.a n8 s.flagC) s := rfl

theorem exec_subN8 (n8 : Byte) (s : State) : exec (.subN8 n8) s = commitAlu (sub8 s.a n8) s := rfl

theorem exec_sbcAN8 (n8 : Byte) (s : State) : exec (.sbcAN8 n8) s = commitAlu (sbc8 s.a n8 s.flagC) s := rfl

theorem exec_ldA16A (a16 : Word) (s : State) : exec (.ldA16A a16) s = .next (write8 s a16 s.a) := rfl

theorem exec_ldAA16 (a16 : Word) (s : State) : exec (.ldAA16 a16) s = .next (s.setA (read8 s a16)) := rfl

theorem exec_pushR16 (rr : R16Stk) (s : State) :
    exec (.pushR16 rr) s = andThen (push16 s (s.getR16Stk rr)) .next := rfl

theorem exec_pushAf (s : State) : exec .pushAf s = andThen (push16 s s.af) .next := rfl

theorem exec_popR16 (rr : R16Stk) (s : State) :
    exec (.popR16 rr) s = andThen (pop16 s) fun p => .next (p.2.putR16Stk rr p.1) := rfl

/-! ### The halves of AF (R11) -/

theorem loByte_af (s : State) : loByte s.af = s.f := loByte_leWord s.f s.a

theorem hiByte_af (s : State) : hiByte s.af = s.a := hiByte_leWord s.f s.a

end Sys2Proof.Machine

namespace Sys2Proof.Safety

open Sys2Proof.Machine

/-! ### Fetching -/

/-- An immediate row of Group 3 (R75). -/
theorem fetchedFrom_aluN8Instr (o : AluOp) (n8 : Byte) :
    FetchedFrom (aluN8Instr o n8) [opXyz 0b11#2 (aluCode o) 0b110#3, n8] := by
  have henc : encode (aluN8Instr o n8) = [opXyz 0b11#2 (aluCode o) 0b110#3, n8] := by cases o <;> rfl
  exact fetchedFrom_of_encode (by cases o <;> decide) henc

theorem fetchedFrom_popR16 (rr : R16Stk) : FetchedFrom (.popR16 rr) [0b11#2 ++ r16StkCode rr ++ 0b0001#4] :=
  fetchedFrom_of_encode (by cases rr <;> decide) (by cases rr <;> rfl)

theorem fetchedFrom_pushR16 (rr : R16Stk) : FetchedFrom (.pushR16 rr) [0b11#2 ++ r16StkCode rr ++ 0b0101#4] :=
  fetchedFrom_of_encode (by cases rr <;> decide) (by cases rr <;> rfl)

/-! ### What an instruction that pushes or pops ends in -/

section
variable {i : Instr} {s : State}

/-- A push and nothing more. -/
theorem pushed_of_andThen_push16 {v : Word} (hexec : exec i s = andThen (push16 s v) .next) (hsp : 2#16 ≤ s.sp) :
    ∃ t, exec i s = .next t ∧ Pushed v [] s t := by
  have hpush := push16_ok s v hsp
  exact ⟨_, by rw [hexec, hpush, andThen_ok], pushed_of_push16 hpush⟩

/-- A push with no room below SP is the instruction's fault, whatever follows it (R38). -/
theorem fault_of_push16_low {v : Word} {k : State → Result} (hexec : exec i s = andThen (push16 s v) k)
    (hsp : s.sp < 2#16) : exec i s = .fault .stackOverflow := by
  rw [hexec, push16_low s v hsp, andThen_error]

variable {k : Word × State → Result} (hexec : exec i s = andThen (pop16 s) k)
include hexec

/-- A pop goes on with the top of the stack and SP past it (R39). -/
theorem exec_of_pop16_ok (hsp : s.sp ≤ 0xFFFD#16) : exec i s = k (stackTop s, s.setSp (s.sp + 2#16)) := by
  rw [hexec, pop16_ok s hsp, andThen_ok, stackTop]

theorem fault_of_pop16_second (hsp : s.sp = 0xFFFE#16) : exec i s = .fault .stackOverflow := by
  rw [hexec, pop16_second s hsp, andThen_error]

theorem fault_of_pop16_top (hsp : s.sp = 0xFFFF#16) : exec i s = .fault .outOfBounds := by
  rw [hexec, pop16_top s hsp, andThen_error]

end

/-- What follows a pop and leaves SP alone adds its own frame to the pop's. -/
theorem popped_of_sameExcept {others : List Part} {s t : State} (hsp : t.sp = s.sp + 2#16)
    (hframe : SameExcept others (s.setSp (s.sp + 2#16)) t) : Popped others s t :=
  ⟨hsp, ((sameExcept_setSp s _).mono (by simp)).trans (hframe.mono fun _ => List.mem_cons_of_mem Part.sp)⟩

/-! ### The obligations -/

/-- Settles O49: as for a register, with the immediate as the operand. -/
theorem arithmeticWithAnImmediate : Obligations.ArithmeticWithAnImmediate :=
  ⟨fetchedFrom_aluN8Instr .add, fetchedFrom_aluN8Instr .adc, fetchedFrom_aluN8Instr .sub, fetchedFrom_aluN8Instr .sbc,
    fun s n8 =>
      ⟨accumulated_of_commitAlu (exec_addAN8 n8 s), rfl, accumulated_of_commitAlu (exec_adcAN8 n8 s), rfl,
        accumulated_of_commitAlu (exec_subN8 n8 s), rfl, accumulated_of_commitAlu (exec_sbcAN8 n8 s), rfl⟩⟩

/-- Settles O40: a store of A at the address, a load of A from it. -/
theorem absoluteAccumulatorLoads : Obligations.AbsoluteAccumulatorLoads :=
  ⟨fun _ => ⟨fetchedFrom_of_encode (by decide) rfl, fetchedFrom_of_encode (by decide) rfl⟩, fun s a16 =>
    ⟨stored_of_write8 (exec_ldA16A a16 s), rfl, loaded_of_putR8 (r := .a) (exec_ldAA16 a16 s), rfl⟩⟩

/-- Settles O41: a push of the pair; a pop, then a write of the pair, which leaves SP where the pop put it. -/
theorem pushAndPopPairs : Obligations.PushAndPopPairs := by
  refine ⟨fun rr => ⟨fetchedFrom_popR16 rr, fetchedFrom_pushR16 rr⟩, fetchedFrom_of_encode (by decide) rfl,
    fun s rr => ⟨fun hsp => ?_, fun hsp => ?_, fun hsp => ?_, fault_of_pop16_second (exec_popR16 rr s),
      fault_of_pop16_top (exec_popR16 rr s), rfl, rfl, rfl⟩⟩
  · obtain ⟨t, ht, hpushed⟩ := pushed_of_andThen_push16 (exec_pushAf s) hsp
    have ⟨_, hlo, hhi, _⟩ := hpushed
    exact ⟨pushed_of_andThen_push16 (exec_pushR16 rr s) hsp,
      t, ht, hlo.trans (loByte_af s), hhi.trans (hiByte_af s), hpushed⟩
  · exact ⟨fault_of_push16_low (exec_pushR16 rr s) hsp, fault_of_push16_low (exec_pushAf s) hsp⟩
  · exact ⟨_, exec_of_pop16_ok (exec_popR16 rr s) hsp, State.getR16Stk_putR16Stk _ rr (stackTop s),
      popped_of_sameExcept (State.putR16Stk_sp _ rr _) (sameExcept_putR16Stk _ rr _)⟩

end Sys2Proof.Safety
end

section
/-! PROOFS. Jumps, calls and returns, DI, the prefix and the undefined opcodes (45_group3_control.md rules R210, R211, R213
to R217, R219, R221, R222): O24, O25, O31, O53, O55. -/

namespace Sys2Proof.Machine

/-! ### The arms -/

theorem exec_jp (a16 : Word) (s : State) : exec (.jp a16) s = .next (s.setPc a16) := rfl

theorem exec_jpHl (s : State) : exec .jpHl s = .next (s.setPc s.hl) := rfl

/-- A jump not taken leaves PC as it is, which is a write of PC all the same. -/
theorem exec_jpCc (cc : Cond) (a16 : Word) (s : State) :
    exec (.jpCc cc a16) s = .next (s.setPc (if s.cond cc then a16 else s.pc)) := by
  have hexec : exec (.jpCc cc a16) s = if s.cond cc then .next (s.setPc a16) else .next s := rfl
  by_cases hcc : s.cond cc = true
  · rw [hexec, if_pos hcc, if_pos hcc]
  · rw [hexec, if_neg hcc, if_neg hcc]
    rfl

theorem exec_call (a16 : Word) (s : State) : exec (.call a16) s = callTo a16 s := rfl

theorem exec_ret (s : State) : exec .ret s = returnFromStack s := rfl

theorem exec_di (s : State) : exec .di s = .next ((s.setIme false).setImePend .none) := rfl

section
variable {s : State} {cc : Cond}

theorem exec_callCc_taken (a16 : Word) (hcc : s.cond cc = true) : exec (.callCc cc a16) s = callTo a16 s := if_pos hcc

theorem exec_callCc_not_taken (a16 : Word) (hcc : s.cond cc = false) : exec (.callCc cc a16) s = .next s :=
  if_neg (by simp [hcc])

theorem exec_retCc_taken (hcc : s.cond cc = true) : exec (.retCc cc) s = returnFromStack s := if_pos hcc

theorem exec_retCc_not_taken (hcc : s.cond cc = false) : exec (.retCc cc) s = .next s :=
  if_neg (by simp [hcc])

end

/-! ### Where calls and returns fault (R38, R39) -/

theorem callTo_low (target : Word) {s : State} (hsp : s.sp < 2#16) : callTo target s = .fault .stackOverflow := by
  rw [callTo, push16_low s s.pc hsp, andThen_error]

theorem returnFromStack_second {s : State} (hsp : s.sp = 0xFFFE#16) : returnFromStack s = .fault .stackOverflow := by
  rw [returnFromStack, pop16_second s hsp, andThen_error]

theorem returnFromStack_top {s : State} (hsp : s.sp = 0xFFFF#16) : returnFromStack s = .fault .outOfBounds := by
  rw [returnFromStack, pop16_top s hsp, andThen_error]

/-! ### Group CB instructions complete (R221) -/

theorem exec_cbRegInstr_next (o : CbOp) (r : R8) (s : State) : ∃ t, exec (cbRegInstr o r) s = .next t := by
  cases o with
  | rot o => cases o <;> exact ⟨_, rfl⟩
  | bit b | res b | set b => exact ⟨_, rfl⟩

theorem exec_cbHlInstr_next (o : CbOp) (s : State) : ∃ t, exec (cbHlInstr o) s = .next t := by
  cases o with
  | rot o => cases o <;> exact ⟨_, rfl⟩
  | bit b | res b | set b => exact ⟨_, rfl⟩

/-- Whatever the second byte, the instruction it selects neither faults nor is refused. -/
theorem exec_decodeCb_next (cb : Byte) (s : State) : ∃ t, exec (decodeCb cb) s = .next t := by
  unfold decodeCb
  cases operand8 (fieldZ cb) with
  | reg r => exact exec_cbRegInstr_next (cbOpOf cb) r s
  | indHL => exact exec_cbHlInstr_next (cbOpOf cb) s

/-! ### Undefined opcodes (R222) -/

section
variable {i : Instr} (hi : instrFormat i = .illegal)
include hi

theorem exec_of_illegal {op : Byte} (henc : encode i = [op]) (s : State) :
    exec i s = .fault (.undefinedOpcode op) := by
  cases i with
  | undefinedD3 | undefinedDB | undefinedDD | undefinedE3 | undefinedE4 | undefinedEB | undefinedEC | undefinedED
  | undefinedF4 | undefinedFC | undefinedFD => cases henc; rfl
  | _ => cases hi

theorem instrCycles_of_illegal (s : State) : instrCycles i s = none := by
  cases i with
  | undefinedD3 | undefinedDB | undefinedDD | undefinedE3 | undefinedE4 | undefinedEB | undefinedEC | undefinedED
  | undefinedF4 | undefinedFC | undefinedFD => rfl
  | _ => cases hi

end

end Sys2Proof.Machine

namespace Sys2Proof.Safety

open Sys2Proof.Machine

/-! ### Fetching -/

theorem fetchedFrom_jpCc (cc : Cond) (a16 : Word) :
    FetchedFrom (.jpCc cc a16) [0b110#3 ++ condCode cc ++ 0b010#3, loByte a16, hiByte a16] :=
  fetchedFrom_of_encode (by cases cc <;> decide) (by cases cc <;> rfl)

theorem fetchedFrom_callCc (cc : Cond) (a16 : Word) :
    FetchedFrom (.callCc cc a16) [0b110#3 ++ condCode cc ++ 0b100#3, loByte a16, hiByte a16] :=
  fetchedFrom_of_encode (by cases cc <;> decide) (by cases cc <;> rfl)

theorem fetchedFrom_retCc (cc : Cond) : FetchedFrom (.retCc cc) [0b110#3 ++ condCode cc ++ 0b000#3] :=
  fetchedFrom_of_encode (by cases cc <;> decide) (by cases cc <;> rfl)

/-! ### What jumps, calls and returns end in -/

/-- A write of PC after a push. -/
theorem Pushed.setPc {v : Word} {s t : State} (h : Pushed v [] s t) (target : Word) :
    Pushed v [.pc] s (t.setPc target) := by
  obtain ⟨hsp, hlo, hhi, hframe⟩ := h
  exact ⟨hsp, hlo, hhi, (hframe.mono (by simp)).trans ((sameExcept_setPc t target).mono (by simp))⟩

section
variable {i : Instr} {s : State}

/-- A jump. -/
theorem jumped_of_setPc {target : Word} (hexec : exec i s = .next (s.setPc target)) :
    ∃ t, exec i s = .next t ∧ t.pc = target ∧ SameExcept [.pc] s t :=
  ⟨_, hexec, rfl, sameExcept_setPc s target⟩

/-- A call with room below SP (R38). -/
theorem called_of_callTo {target : Word} (hexec : exec i s = callTo target s) (hsp : 2#16 ≤ s.sp) :
    ∃ t, exec i s = .next t ∧ t.pc = target ∧ Pushed s.pc [.pc] s t := by
  have hpush := push16_ok s s.pc hsp
  exact ⟨_, hexec.trans (callTo_ok target s hsp), rfl, (pushed_of_push16 hpush).setPc target⟩

/-- A return with a word to pop (R39). -/
theorem returned_of_returnFromStack (hexec : exec i s = returnFromStack s) (hsp : s.sp ≤ 0xFFFD#16) :
    ∃ t, exec i s = .next t ∧ t.pc = stackTop s ∧ Popped [.pc] s t :=
  ⟨_, hexec.trans (returnFromStack_ok s hsp), rfl, popped_of_sameExcept rfl (sameExcept_setPc _ _)⟩

end

/-! ### The obligations -/

/-- Settles O24: the instruction that the second byte selects always completes, and the count does not depend on the
state. -/
theorem prefixRunsTheSelectedCbInstruction : Obligations.PrefixRunsTheSelectedCbInstruction := by
  refine fun s => ⟨fun hpc => ?_, execPrefixCB_top s⟩
  obtain ⟨t, ht⟩ := exec_decodeCb_next (read8 s s.pc) (advance s 1)
  have hprefix : exec .prefixCB s = exec (decodeCb (read8 s s.pc)) (advance s 1) := execPrefixCB_ok s hpc
  exact ⟨t, hprefix.trans ht, ht, (instrCycles_decodeCb _ _).symm⟩

/-- Settles O53: each is a write of PC; the one not taken writes the PC it has. -/
theorem absoluteJumps : Obligations.AbsoluteJumps :=
  ⟨fetchedFrom_jpCc, fun _ => fetchedFrom_of_encode (by decide) rfl, fetchedFrom_of_encode (by decide) rfl,
    fun s cc a16 =>
      ⟨jumped_of_setPc (exec_jpCc cc a16 s), rfl, jumped_of_setPc (exec_jp a16 s), rfl, jumped_of_setPc (exec_jpHl s),
        rfl⟩⟩

/-- Settles O55: where its condition holds, a conditional form is the call or the return itself. -/
theorem callsAndReturns : Obligations.CallsAndReturns := by
  refine ⟨fetchedFrom_retCc, fetchedFrom_of_encode (by decide) rfl, fetchedFrom_callCc,
    fun _ => fetchedFrom_of_encode (by decide) rfl, fun s cc a16 =>
      ⟨fun hsp => ⟨?_, fun hcc => ?_⟩, fun hsp => ⟨?_, fun hcc => ?_⟩, fun hsp => ⟨?_, fun hcc => ?_⟩,
        fun hsp => ⟨?_, fun hcc => ?_⟩, fun hsp => ⟨?_, fun hcc => ?_⟩,
        fun hcc => ⟨exec_callCc_not_taken a16 hcc, exec_retCc_not_taken hcc⟩, rfl, rfl, rfl, rfl⟩⟩
  · exact called_of_callTo (exec_call a16 s) hsp
  · exact called_of_callTo (exec_callCc_taken a16 hcc) hsp
  · exact (exec_call a16 s).trans (callTo_low a16 hsp)
  · exact (exec_callCc_taken a16 hcc).trans (callTo_low a16 hsp)
  · exact returned_of_returnFromStack (exec_ret s) hsp
  · exact returned_of_returnFromStack (exec_retCc_taken hcc) hsp
  · exact (exec_ret s).trans (returnFromStack_second hsp)
  · exact (exec_retCc_taken hcc).trans (returnFromStack_second hsp)
  · exact (exec_ret s).trans (returnFromStack_top hsp)
  · exact (exec_retCc_taken hcc).trans (returnFromStack_top hsp)

/-- Settles O25: the eleven are the instructions of illegal format, which fault with their byte and have no count. -/
theorem undefinedOpcodesFault : Obligations.UndefinedOpcodesFault :=
  ⟨fetchedFrom_of_encode (by decide) rfl, fetchedFrom_of_encode (by decide) rfl, fetchedFrom_of_encode (by decide) rfl,
    fetchedFrom_of_encode (by decide) rfl, fetchedFrom_of_encode (by decide) rfl, fetchedFrom_of_encode (by decide) rfl,
    fetchedFrom_of_encode (by decide) rfl, fetchedFrom_of_encode (by decide) rfl, fetchedFrom_of_encode (by decide) rfl,
    fetchedFrom_of_encode (by decide) rfl, fetchedFrom_of_encode (by decide) rfl, fun s =>
      ⟨exec_of_illegal rfl rfl s, instrCycles_of_illegal rfl s, exec_of_illegal rfl rfl s, instrCycles_of_illegal rfl s,
        exec_of_illegal rfl rfl s, instrCycles_of_illegal rfl s, exec_of_illegal rfl rfl s, instrCycles_of_illegal rfl s,
        exec_of_illegal rfl rfl s, instrCycles_of_illegal rfl s, exec_of_illegal rfl rfl s, instrCycles_of_illegal rfl s,
        exec_of_illegal rfl rfl s, instrCycles_of_illegal rfl s, exec_of_illegal rfl rfl s, instrCycles_of_illegal rfl s,
        exec_of_illegal rfl rfl s, instrCycles_of_illegal rfl s, exec_of_illegal rfl rfl s, instrCycles_of_illegal rfl s,
        exec_of_illegal rfl rfl s, instrCycles_of_illegal rfl s⟩⟩

/-- Settles O31: DI writes the two interrupt-control fields. -/
theorem diActsAtOnce : Obligations.DiActsAtOnce := by
  refine ⟨fetchedFrom_of_encode (by decide) rfl, fun s => ⟨⟨_, exec_di s, rfl, rfl, ?_⟩, rfl⟩⟩
  exact ((sameExcept_setIme s false).mono (by simp)).trans ((sameExcept_setImePend _ .none).mono (by simp))

end Sys2Proof.Safety
end

section
/-! PROOFS. BIT, RES and SET (40_arith_helpers.md rule R102, 46_group_cb.md rules R256 to R261), and how any instruction
of Group CB is fetched (45_group3_control.md rule R221): O58. -/

namespace Sys2Proof.Machine

/-! ### One bit of a byte (R102) -/

theorem getLsbD_bitMask (b : BitVec 3) (i : Nat) : (bitMask b).getLsbD i = decide (i = b.toNat) := by
  have hb := b.isLt
  rw [bitMask, ← BitVec.twoPow_eq, BitVec.getLsbD_twoPow, decide_eq_true hb, Bool.true_and, decide_eq_decide]
  exact eq_comm

/-- `w` is `v` with bit `b` made `x`. -/
def WithBit (b : BitVec 3) (x : Bool) (v w : Byte) : Prop :=
  ∀ i, i < 8 → w.getLsbD i = if i = b.toNat then x else v.getLsbD i

theorem withBit_resetBit (b : BitVec 3) (v : Byte) : WithBit b false v (resetBit v b) := by
  intro i hi
  rw [resetBit, BitVec.getLsbD_and, BitVec.getLsbD_not, getLsbD_bitMask]
  split
  · next h => simp [h]
  · next h => simp [h, hi]

theorem withBit_setBit (b : BitVec 3) (v : Byte) : WithBit b true v (setBit v b) := by
  intro i _
  rw [setBit, BitVec.getLsbD_or, getLsbD_bitMask]
  split
  · next h => simp [h]
  · next h => simp [h]

/-! ### The arms -/

theorem exec_bitR8 (b : BitVec 3) (r : R8) (s : State) : exec (.bitR8 b r) s = commitBit b (s.getR8 r) s := rfl

theorem exec_bitHl (b : BitVec 3) (s : State) : exec (.bitHl b) s = commitBit b (read8 s s.hl) s := rfl

theorem exec_resR8 (b : BitVec 3) (r : R8) (s : State) :
    exec (.resR8 b r) s = .next (s.putR8 r (resetBit (s.getR8 r) b)) := rfl

theorem exec_resHl (b : BitVec 3) (s : State) :
    exec (.resHl b) s = .next (write8 s s.hl (resetBit (read8 s s.hl) b)) := rfl

theorem exec_setR8 (b : BitVec 3) (r : R8) (s : State) :
    exec (.setR8 b r) s = .next (s.putR8 r (setBit (s.getR8 r) b)) := rfl

theorem exec_setHl (b : BitVec 3) (s : State) :
    exec (.setHl b) s = .next (write8 s s.hl (setBit (read8 s s.hl) b)) := rfl

/-! ### Fetching the prefix -/

/-- The prefix asks for no operand byte: it is fetched alone (R61). -/
theorem fetchInstr_prefixByte {s : State} (hop : read8 s s.pc = Config.prefixByte) (hpc : s.pc ≠ 0xFFFF#16) :
    fetchInstr s = .ok (.prefixCB, s.setPc (s.pc + 1#16)) := by
  rw [fetchInstr_zero s hpc (by rw [hop]; rfl), hop]
  rfl

end Sys2Proof.Machine

namespace Sys2Proof.Safety

open Sys2Proof.Machine

/-! ### Fetching: all of Group CB at once (R221) -/

/-- Where 0xCB or the byte after it would be fetched at 0xFFFF the step faults: on the first fetch, or when the prefix
runs (R36, R273). -/
theorem step_prefixByte_of_not_fetchable {s : State} (hop : read8 s s.pc = Config.prefixByte) (hf : ¬ Fetchable s 2) :
    step s = .fault .counterOverflow := by
  by_cases hpc : s.pc = 0xFFFF#16
  · simp only [step, fetchInstr_top s hpc]
  · have hlast : (s.setPc (s.pc + 1#16)).pc = 0xFFFF#16 := by
      unfold Fetchable at hf
      rw [State.setPc_pc]
      bv_omega
    have hexec : exec .prefixCB (s.setPc (s.pc + 1#16)) = .fault .counterOverflow := execPrefixCB_top _ hlast
    simp only [step, fetchInstr_prefixByte hop hpc, hexec, finishStep_fault]

/-- An instruction of Group CB is fetched from its encoding, whose second byte selects it. -/
theorem fetchedFrom_of_encode_cb {i : Instr} {cb : Byte} (henc : encode i = [Config.prefixByte, cb]) :
    FetchedFrom i [Config.prefixByte, cb] := by
  have hdec := decode_encode i
  rw [henc] at hdec
  obtain rfl : decodeCb cb = i := by cases hdec; rfl
  refine ⟨henc, fun _ => rfl, fun s => ⟨fun hf => ?_, fun hf => ?_⟩⟩
  · exact (stepIs_decodeCb (holdsAtPc_placeBytes s _) hf).1
  · exact step_prefixByte_of_not_fetchable (read8_pc_of_holdsAtPc (holdsAtPc_placeBytes s _)) hf

/-! ### What BIT, RES and SET end in -/

section
variable {i : Instr} {s : State} {b : BitVec 3}

/-- BIT: Z is the complement of the tested bit, and only F is written. -/
theorem tested_of_commitBit {v : Byte} (hexec : exec i s = commitBit b v s) :
    ∃ t, exec i s = .next t ∧ t.f = packFlags (!v.getLsbD b.toNat) false true s.flagC ∧ SameExcept [.f] s t :=
  ⟨_, hexec, commitBit_next rfl⟩

variable {x : Bool} {old new : Byte} (hbit : WithBit b x old new)
include hbit

/-- RES or SET of a register. -/
theorem withBit_of_putR8 {r : R8} (hexec : exec i s = .next (s.putR8 r new)) :
    ∃ t, exec i s = .next t ∧ WithBit b x old (t.getR8 r) ∧ SameExcept [.r8 r] s t := by
  obtain ⟨t, ht, hnew, hframe⟩ := loaded_of_putR8 hexec
  exact ⟨t, ht, hnew ▸ hbit, hframe⟩

/-- RES or SET of a byte of memory. -/
theorem withBit_of_write8 {addr : Word} (hexec : exec i s = .next (write8 s addr new)) :
    ∃ t, exec i s = .next t ∧ WithBit b x old (read8 t addr) ∧ SameExcept [.bytes addr 1] s t := by
  obtain ⟨t, ht, hnew, hframe⟩ := stored_of_write8 hexec
  exact ⟨t, ht, hnew ▸ hbit, hframe⟩

end

/-! ### The obligation -/

/-- Settles O58: BIT writes F alone; RES and SET are a load of the register, or a store of the byte at HL, of a value
that differs from the old one in at most the one bit. -/
theorem cbSingleBits : Obligations.CbSingleBits :=
  ⟨fun _ _ => ⟨fetchedFrom_of_encode_cb rfl, fetchedFrom_of_encode_cb rfl, fetchedFrom_of_encode_cb rfl⟩,
    fun _ => ⟨fetchedFrom_of_encode_cb rfl, fetchedFrom_of_encode_cb rfl, fetchedFrom_of_encode_cb rfl⟩, fun s b r =>
      ⟨tested_of_commitBit (exec_bitR8 b r s), tested_of_commitBit (exec_bitHl b s),
        withBit_of_putR8 (withBit_resetBit b (s.getR8 r)) (exec_resR8 b r s),
        withBit_of_write8 (withBit_resetBit b (read8 s s.hl)) (exec_resHl b s),
        withBit_of_putR8 (withBit_setBit b (s.getR8 r)) (exec_setR8 b r s),
        withBit_of_write8 (withBit_setBit b (read8 s s.hl)) (exec_setHl b s),
        rfl, rfl, rfl, rfl, rfl, rfl⟩⟩

end Sys2Proof.Safety
end

section
/-! PROOFS. Fetching at the top of memory (60_exceptions.md rules R273, R278, 45_group3_control.md rule R222): O20. Where a
byte would be fetched at 0xFFFF the step faults; an instruction at 0xFFFE that lies in one byte is fetched whole, and PC
stays at 0xFFFF unless the instruction writes it. -/

namespace Sys2Proof

/-! ### The undefined opcodes lie in their one byte (R77) -/

theorem operandBytes_of_illegal {op : Byte} (h : instrFormat (decodeFirst op 0#8 0#16) = .illegal) :
    operandBytes op = 0 := by
  rw [operandBytes, h]
  rfl

theorem encode_decodeFirst_of_illegal :
    ∀ op : Byte, instrFormat (decodeFirst op 0#8 0#16) = .illegal → encode (decodeFirst op 0#8 0#16) = [op] := by
  decide

end Sys2Proof

namespace Sys2Proof.Machine

/-! ### What leaves PC as it is (R18) -/

/-- EI writes `ime_pend` at most (R220). -/
theorem exec_ei (s : State) :
    exec .ei s = if s.imePend = .none then .next (s.setImePend .armed1) else .next s := rfl

/-- A store of a word with nothing after it leaves PC (R35). -/
theorem andThen_write16_next_pc {s t : State} {addr v : Word} (h : andThen (write16 s addr v) .next = .next t) :
    t.pc = s.pc := by
  by_cases haddr : addr = 0xFFFF#16
  · rw [haddr, write16_top] at h
    cases h
  · rw [write16_ok s v haddr] at h
    cases h
    rfl

/-- A push with nothing after it leaves PC (R38). -/
theorem andThen_push16_next_pc {s t : State} {v : Word} (h : andThen (push16 s v) .next = .next t) : t.pc = s.pc := by
  obtain ⟨u, hpush, hu⟩ := andThen_push16_next h
  obtain ⟨_, hpc, _⟩ := push16_next hpush
  cases hu
  exact hpc

end Sys2Proof.Machine

namespace Sys2Proof.Safety

open Sys2Proof.Machine

/-! ### PC is kept by what does not list it (R18, R26) -/

/-- An instruction that does not list PC among what it writes leaves it past its bytes: a case for each way an arm of
`exec` ends. -/
theorem exec_next_pc {i : Instr} {s t : State} (h : exec i s = .next t) (hpc : .pc ∉ writes s i) : t.pc = s.pc := by
  cases i with
  | jr | ret | reti | jp | jpHl | call | rst | prefixCB => exact absurd List.mem_cons_self hpc
  | jrCc cc _ | retCc cc | jpCc cc _ | callCc cc _ =>
    have hcc : ¬ s.cond cc = true := fun hcc => by simp [writes, hcc] at hpc
    cases (if_neg hcc).symm.trans h
    rfl
  | undefinedD3 | undefinedDB | undefinedDD | undefinedE3 | undefinedE4 | undefinedEB | undefinedEC | undefinedED
  | undefinedF4 | undefinedFC | undefinedFD => cases h
  | popR16 rr =>
    obtain ⟨_, ht⟩ := andThen_pop16_next h
    cases ht
    exact State.putR16Stk_pc _ _ _
  | popAf =>
    obtain ⟨_, ht⟩ := andThen_pop16_next h
    cases ht
    rfl
  | pushR16 | pushAf => exact andThen_push16_next_pc h
  | ldA16Sp => exact andThen_write16_next_pc h
  | ei =>
    rw [exec_ei] at h
    split at h
    · cases h
      rfl
    · cases h
      rfl
  | ldR16N16 | incR16 | decR16 =>
    cases h
    exact State.putR16_pc _ _ _
  | incR8 | decR8 | ldR8N8 | ldR8R8 | ldR8Hl | rlcR8 | rrcR8 | rlR8 | rrR8 | slaR8 | sraR8 | swapR8 | srlR8 | resR8
  | setR8 =>
    cases h
    exact State.putR8_pc _ _ _
  -- What is left updates at most registers, F, SP, `ime`, `ime_pend` and memory.
  | _ =>
    cases h
    rfl

/-! ### A byte that would be fetched at 0xFFFF (R273) -/

variable {s : State} {i : Instr}

/-- Bytes at PC that decode to an instruction, but do not all lie below 0xFFFF, make the step fault. -/
theorem step_of_not_fetchable {bytes : List Byte} (hi : i.wellFormed = true) (hdec : decode bytes = .ok (i, []))
    (hat : HoldsAtPc s bytes) (hf : ¬ Fetchable s bytes.length) : step s = .fault .counterOverflow := by
  match bytes with
  | [] => cases hdec
  | op :: args =>
    by_cases hp : op = Config.prefixByte
    · subst hp
      obtain ⟨cb, rfl, rfl⟩ := eq_decodeCb_of_decode hi hdec
      exact step_prefixByte_of_not_fetchable (read8_pc_of_holdsAtPc hat) hf
    · simp only [step, fetchInstr_of_not_fetchable (operandBytes_eq_length_of_decode hp hdec) hat hf]

/-! ### One byte at 0xFFFE (R222, R278) -/

/-- An undefined opcode below 0xFFFF is fetched, and then faults with its byte. -/
theorem step_of_illegal {op : Byte} (hpc : s.pc ≠ 0xFFFF#16) (hat : HoldsAtPc s [op])
    (hill : instrFormat (decodeFirst op 0#8 0#16) = .illegal) : step s = .fault (.undefinedOpcode op) := by
  have hop := read8_pc_of_holdsAtPc hat
  have hfetch := fetchInstr_zero s hpc (by rw [hop]; exact operandBytes_of_illegal hill)
  have hexec := exec_of_illegal hill (encode_decodeFirst_of_illegal op hill) (s.setPc (s.pc + 1#16))
  rw [hop] at hfetch
  simp only [step, hfetch, hexec, finishStep_fault]

/-- Settles O20: a fetch at 0xFFFF faults; below it O19 says what the step is, and PC moves only where the instruction
writes it. -/
theorem fetchFaultsAtTheTopOfMemory : Obligations.FetchFaultsAtTheTopOfMemory := by
  refine fun s => ⟨fun hpc => ?_, fun i hi => step_of_not_fetchable hi (decode_encode i),
    fun i t hi hpc hat hlen ht hkeep => ⟨?_, ?_⟩,
    fun op hpc hat hill => step_of_illegal (by rw [hpc]; decide) hat hill⟩
  · simp only [step, fetchInstr_top s hpc]
  · have hf : Fetchable s (encode i).length := by rw [Fetchable, hlen, hpc]; decide
    obtain ⟨hnext, _⟩ := stepRunsTheDecodedInstruction s i hi hat hf
    exact (hnext t (by rw [hlen]; exact ht)).1
  · have hend : (advance s 1).pc = 0xFFFF#16 := by rw [advance, State.setPc_pc, hpc]; rfl
    exact (exec_next_pc ht hkeep).trans hend

end Sys2Proof.Safety
end

section
/-! PROOFS. When an enable takes effect and what an instruction costs (70_reset_and_hazards.md rules R305, R310, R311): O28,
O33. While an enable is in flight only DI writes `ime_pend`, so the hook after any other instruction completes it. A cost
does not depend on operand bytes, and without a condition it does not depend on the state. -/

namespace Sys2Proof

/-! ### The first byte selects the row (R61) -/

/-- Outside Group CB an instruction is the row of its first byte, with some operands. -/
theorem eq_decodeFirst_of_decode {op : Byte} {args : List Byte} {i : Instr} (hp : op ≠ Config.prefixByte)
    (h : decode (op :: args) = .ok (i, [])) : ∃ n8 n16, i = decodeFirst op n8 n16 := by
  simp only [decode, if_neg hp] at h
  split at h
  · cases h; exact ⟨_, _, rfl⟩
  · cases h; exact ⟨_, _, rfl⟩
  · cases h; exact ⟨_, _, rfl⟩
  · cases h

/-- In Group CB the second byte selects the instruction (R221). -/
theorem eq_decodeCb_of_encode {cb : Byte} {i : Instr} (h : encode i = [Config.prefixByte, cb]) : i = decodeCb cb := by
  have hdec := decode_encode i
  rw [h] at hdec
  cases hdec
  rfl

end Sys2Proof

namespace Sys2Proof.Machine

/-! ### What an instruction costs (R310, R311) -/

/-- Rows that differ in their operand bytes alone cost the same: down the decode tree, both take the same branch. -/
theorem instrCycles_decodeFirst (op n8 : Byte) (n16 : Word) (s : State) :
    instrCycles (decodeFirst op n8 n16) s = instrCycles (decodeFirst op 0#8 0#16) s := by
  unfold decodeFirst
  split
  case h_1 =>
    unfold decodeGroup0
    split
    case h_1 | h_2 | h_7 => split <;> rfl
    case h_3 | h_4 | h_5 | h_6 | h_8 => rfl
  case h_2 | h_3 => rfl
  case h_4 =>
    unfold decodeGroup3
    split
    case h_1 | h_3 | h_4 | h_5 | h_6 => split <;> rfl
    case h_2 | h_8 => rfl
    case h_7 => cases aluOf (fieldY op) <;> rfl

/-- Only the conditional instructions, and the prefix, whose second byte lies in memory, have a cost that looks at the
state. -/
theorem instrCycles_eq_of_unconditional {i : Instr} (hprefix : i ≠ .prefixCB) (hjr : ∀ cc e8, i ≠ .jrCc cc e8)
    (hjp : ∀ cc a16, i ≠ .jpCc cc a16) (hcall : ∀ cc a16, i ≠ .callCc cc a16) (hret : ∀ cc, i ≠ .retCc cc)
    (s t : State) : instrCycles i s = instrCycles i t := by
  cases i with
  | prefixCB => exact absurd rfl hprefix
  | jrCc cc e8 => exact absurd rfl (hjr cc e8)
  | jpCc cc a16 => exact absurd rfl (hjp cc a16)
  | callCc cc a16 => exact absurd rfl (hcall cc a16)
  | retCc cc => exact absurd rfl (hret cc)
  | _ => rfl

/-! ### What leaves `ime_pend` as it is (R23) -/

/-- A store of a word with nothing after it leaves `ime_pend` (R35). -/
theorem andThen_write16_next_imePend {s t : State} {addr v : Word} (h : andThen (write16 s addr v) .next = .next t) :
    t.imePend = s.imePend := by
  by_cases haddr : addr = 0xFFFF#16
  · rw [haddr, write16_top] at h
    cases h
  · rw [write16_ok s v haddr] at h
    cases h
    rfl

/-- A push leaves `ime_pend`, if what comes after it does (R38). -/
theorem andThen_push16_next_imePend {s t : State} {v : Word} {k : State → Result} (h : andThen (push16 s v) k = .next t)
    (hk : ∀ u, k u = .next t → t.imePend = u.imePend) : t.imePend = s.imePend := by
  obtain ⟨u, hpush, hu⟩ := andThen_push16_next h
  obtain ⟨_, _, _, hpend, _⟩ := push16_next hpush
  exact (hk u hu).trans hpend

/-- A call leaves `ime_pend` (R217). -/
theorem callTo_next_imePend {s t : State} {target : Word} (h : callTo target s = .next t) : t.imePend = s.imePend :=
  andThen_push16_next_imePend h fun _ hu => by cases hu; rfl

/-- A return leaves `ime_pend` (R211). -/
theorem returnFromStack_next_imePend {s t : State} (h : returnFromStack s = .next t) : t.imePend = s.imePend := by
  obtain ⟨_, ht⟩ := andThen_pop16_next h
  cases ht
  rfl

/-- A complete instruction leaves `ime_pend` as it is, unless it is DI, or EI with no enable in flight (R219, R220): a
case for each way an arm of `exec` ends. -/
theorem exec_next_imePend {i : Instr} {s t : State} (h : exec i s = .next t) (hi : i.wellFormed = true) (hdi : i ≠ .di)
    (hei : i = .ei → s.imePend ≠ .none) : t.imePend = s.imePend := by
  cases i with
  | prefixCB => cases hi
  | di => exact absurd rfl hdi
  | ei =>
    rw [exec_ei, if_neg (hei rfl)] at h
    cases h
    rfl
  | undefinedD3 | undefinedDB | undefinedDD | undefinedE3 | undefinedE4 | undefinedEB | undefinedEC | undefinedED
  | undefinedF4 | undefinedFC | undefinedFD => cases h
  | call | rst => exact callTo_next_imePend h
  | ret => exact returnFromStack_next_imePend h
  | callCc cc a16 =>
    by_cases hcc : s.cond cc = true
    · exact callTo_next_imePend ((if_pos hcc).symm.trans h)
    · cases (if_neg hcc).symm.trans h
      rfl
  | retCc cc =>
    by_cases hcc : s.cond cc = true
    · exact returnFromStack_next_imePend ((if_pos hcc).symm.trans h)
    · cases (if_neg hcc).symm.trans h
      rfl
  | jrCc cc _ | jpCc cc _ =>
    by_cases hcc : s.cond cc = true
    · cases (if_pos hcc).symm.trans h
      rfl
    · cases (if_neg hcc).symm.trans h
      rfl
  | reti | popAf =>
    obtain ⟨_, ht⟩ := andThen_pop16_next h
    cases ht
    rfl
  | popR16 =>
    obtain ⟨_, ht⟩ := andThen_pop16_next h
    cases ht
    exact State.putR16Stk_imePend _ _ _
  | pushR16 | pushAf => exact andThen_push16_next_imePend h fun _ hu => by cases hu; rfl
  | ldA16Sp => exact andThen_write16_next_imePend h
  | ldR16N16 | incR16 | decR16 =>
    cases h
    exact State.putR16_imePend _ _ _
  | incR8 | decR8 | ldR8N8 | ldR8R8 | ldR8Hl | rlcR8 | rrcR8 | rlR8 | rrR8 | slaR8 | sraR8 | swapR8 | srlR8 | resR8
  | setR8 =>
    cases h
    exact State.putR8_imePend _ _ _
  -- What is left updates at most registers, F, PC, SP and memory.
  | _ =>
    cases h
    rfl

/-- With an enable in flight, the hook after a complete instruction other than DI turns `ime` on (R282, R305). -/
theorem imeHook_of_armed0 {i : Instr} {s t : State} (hpend : s.imePend = .armed0) (h : exec i s = .next t)
    (hi : i.wellFormed = true) (hdi : i ≠ .di) : imeHook t = (t.setIme true).setImePend .none := by
  have hkeep : t.imePend = s.imePend := exec_next_imePend h hi hdi fun _ => by simp [hpend]
  exact imeHook_armed0 t (hkeep.trans hpend)

end Sys2Proof.Machine

namespace Sys2Proof.Safety

open Sys2Proof.Machine

/-- Settles O28: O19 says that the step is the instruction and then the hook; DI has cancelled the enable by then, any
other instruction has left it for the hook. -/
theorem enableComesOneInstructionLate : Obligations.EnableComesOneInstructionLate := by
  refine fun s => ⟨fun hpend hat hf => ?_, fun hpend i hi hat hf => ⟨fun t ht => ?_, fun k hk => ?_⟩⟩
  · obtain ⟨hnext, _⟩ := stepRunsTheDecodedInstruction s .ei rfl hat hf
    have hexec := (exec_ei (advance s 1)).trans (if_pos hpend)
    exact ⟨_, (hnext _ hexec).1, rfl, rfl, rfl⟩
  · obtain ⟨hnext, _⟩ := stepRunsTheDecodedInstruction s i hi hat hf
    refine ⟨imeHook t, (hnext t ht).1, ?_⟩
    by_cases hdi : i = .di
    · subst hdi
      rw [exec_di] at ht
      cases ht
      exact ⟨rfl, rfl⟩
    · rw [imeHook_of_armed0 (s := advance s (encode i).length) hpend ht hi hdi]
      exact ⟨rfl, (decide_eq_true hdi).symm⟩
  · obtain ⟨_, hfault⟩ := stepRunsTheDecodedInstruction s i hi hat hf
    exact (hfault k hk).1

/-- Settles O33: the cost function of a first byte is the cost of its row, read with any operands in any state; that of
a second byte is `cbCycles`. -/
theorem onlyConditionsChangeTheCost : Obligations.OnlyConditionsChangeTheCost := by
  refine ⟨fun cc => ⟨⟨2, fun _ _ => rfl⟩, ⟨3, fun _ _ => rfl⟩, ⟨3, fun _ _ => rfl⟩, ⟨2, fun _ => rfl⟩⟩,
    ⟨fun op => instrCycles (decodeFirst op 0#8 0#16) State.reset, fun i op rest s henc hop hjr hjp hcall hret => ?_⟩,
    fun cb => some (cbCycles cb), fun i cb s henc => ?_, fun _ => rfl⟩
  · have hdec : decode (op :: rest) = .ok (i, []) := henc ▸ decode_encode i
    obtain ⟨n8, n16, hrow⟩ := eq_decodeFirst_of_decode hop hdec
    have hprefix : i ≠ .prefixCB := by
      rintro rfl
      cases henc
      exact hop rfl
    calc instrCycles i s
      _ = instrCycles i State.reset := instrCycles_eq_of_unconditional hprefix hjr hjp hcall hret s State.reset
      _ = instrCycles (decodeFirst op 0#8 0#16) State.reset := by rw [hrow, instrCycles_decodeFirst]
  · rw [eq_decodeCb_of_encode henc, instrCycles_decodeCb]

end Sys2Proof.Safety
end

section
/-! PROOFS. Decoding and encoding undo each other, and the opcode space (30_encoding.md rules R60 to
R79): O14, O15, O16, O17, O18. -/

namespace Sys2Proof

/-! ### Decoding what was encoded -/

/-- What bytes decode to as a whole they decode to with anything after them, the prefix byte alone apart. -/
theorem decode_append_of_decode {bytes : List Byte} {i : Instr} (rest : List Byte) (hi : i.wellFormed = true)
    (hdec : decode bytes = .ok (i, [])) : decode (bytes ++ rest) = .ok (i, rest) := by
  match bytes with
  | [] => cases hdec
  | op :: args =>
    by_cases hp : op = Config.prefixByte
    · subst hp
      obtain ⟨cb, rfl, rfl⟩ := eq_decodeCb_of_decode hi hdec
      rfl
    · exact decode_append rest hp (operandBytes_eq_length_of_decode hp hdec) hdec

/-- Settles O14: an encoding decodes to its instruction as a whole, and so it does with any bytes after it. -/
theorem decodingUndoesEncoding : Obligations.DecodingUndoesEncoding :=
  fun i rest hi => decode_append_of_decode rest hi (decode_encode i)

/-! ### Encoding what was decoded -/

/-- The first bytes of the rows with a byte as their operand (R72, R75). -/
def byteOperandRows : List Byte :=
  [0x06#8, 0x0E#8, 0x16#8, 0x18#8, 0x1E#8, 0x20#8, 0x26#8, 0x28#8, 0x2E#8, 0x30#8, 0x36#8, 0x38#8, 0x3E#8, 0xC6#8,
    0xCE#8, 0xD6#8, 0xDE#8, 0xE0#8, 0xE6#8, 0xE8#8, 0xEE#8, 0xF0#8, 0xF6#8, 0xF8#8, 0xFE#8]

/-- The first bytes of the rows with a word as their operand (R72, R75). -/
def wordOperandRows : List Byte :=
  [0x01#8, 0x08#8, 0x11#8, 0x21#8, 0x31#8, 0xC2#8, 0xC3#8, 0xC4#8, 0xCA#8, 0xCC#8, 0xCD#8, 0xD2#8, 0xD4#8, 0xDA#8,
    0xDC#8, 0xEA#8, 0xFA#8]

theorem mem_byteOperandRows_iff : ∀ op : Byte, op ∈ byteOperandRows ↔ operandBytes op = 1 := by decide

theorem mem_wordOperandRows_iff : ∀ op : Byte, op ∈ wordOperandRows ↔ operandBytes op = 2 := by decide

theorem encode_decodeFirst_zero : ∀ op : Byte, operandBytes op = 0 → encode (decodeFirst op 0#8 0#16) = [op] := by
  decide

theorem encode_decodeFirst_one {op : Byte} (n8 : Byte) (hn : operandBytes op = 1) :
    encode (decodeFirst op n8 0#16) = [op, n8] := by
  have hop := (mem_byteOperandRows_iff op).mpr hn
  unfold byteOperandRows at hop
  fin_cases hop <;> rfl

theorem encode_decodeFirst_two {op : Byte} (n16 : Word) (hn : operandBytes op = 2) :
    encode (decodeFirst op 0#8 n16) = [op, loByte n16, hiByte n16] := by
  have hop := (mem_wordOperandRows_iff op).mpr hn
  unfold wordOperandRows at hop
  fin_cases hop <;> rfl

theorem encode_decodeCb : ∀ cb : Byte, encode (decodeCb cb) = [Config.prefixByte, cb] := by decide

/-- What the second byte selects is a complete instruction (R79). -/
theorem decodeCb_wellFormed : ∀ cb : Byte, (decodeCb cb).wellFormed = true := by decide

/-- Settles O15: a case for each branch of the decoder. -/
theorem encodingUndoesDecoding : Obligations.EncodingUndoesDecoding := by
  intro bytes rest i hdec
  match bytes with
  | [] => cases hdec
  | op :: args =>
    by_cases hp : op = Config.prefixByte
    · subst hp
      match args with
      | [] => cases hdec; rfl
      | cb :: left => cases hdec; rw [encode_decodeCb]; rfl
    · simp only [decode, if_neg hp] at hdec
      split at hdec
      · next hn => cases hdec; rw [encode_decodeFirst_zero op hn]; rfl
      · next n8 left hn => cases hdec; rw [encode_decodeFirst_one n8 hn]; rfl
      · next lo hi left hn =>
        cases hdec
        rw [encode_decodeFirst_two _ hn, Machine.loByte_leWord, Machine.hiByte_leWord]
        rfl
      · cases hdec


/-! ### The opcode space (R77, R79) -/

/-- A first byte and two more always hold an instruction. -/
theorem decode_three (op b1 b2 : Byte) (rest : List Byte) :
    ∃ i left, decode (op :: b1 :: b2 :: rest) = .ok (i, left) := by
  by_cases hp : op = Config.prefixByte
  · subst hp
    exact ⟨_, _, rfl⟩
  · have hle := operandBytes_le_two op
    match hn : operandBytes op, hle with
    | 0, _ => exact ⟨_, _, decode_zero _ hp hn⟩
    | 1, _ => exact ⟨_, _, decode_one b1 _ hp hn⟩
    | 2, _ => exact ⟨_, _, decode_two b1 b2 _ hp hn⟩

/-- The prefix row alone is read only where nothing follows the prefix byte (R221). -/
theorem ne_prefixCB_of_decode {op b1 : Byte} {bytes left : List Byte} {i : Instr}
    (h : decode (op :: b1 :: bytes) = .ok (i, left)) : i ≠ .prefixCB := by
  by_cases hp : op = Config.prefixByte
  · subst hp
    cases h
    intro hcb
    have hi := decodeCb_wellFormed b1
    rw [hcb] at hi
    cases hi
  · rintro rfl
    have hbytes : op :: b1 :: bytes = Config.prefixByte :: left := encodingUndoesDecoding _ _ _ h
    exact hp (List.cons.inj hbytes).1

/-- Settles O17: three bytes decode, to the prefix row never; the rest is a check of the 256 values of a byte. -/
theorem everyOpcodeByteHasOneRow : Obligations.EveryOpcodeByteHasOneRow := by
  refine ⟨fun op b1 b2 rest => ?_, by decide, by decide, by decide⟩
  obtain ⟨i, left, h⟩ := decode_three op b1 b2 rest
  exact ⟨i, left, h, ne_prefixCB_of_decode h⟩

/-- Settles O16: each sequence is run through the decoder. -/
theorem knownWordsDecode : Obligations.KnownWordsDecode :=
  ⟨rfl, rfl, rfl, rfl, rfl, rfl, rfl, rfl, rfl, rfl, rfl, rfl, rfl⟩

/-- Settles O18: the tables are run through, and a condition is the flag it tests or the negation of it. -/
theorem operandCodeTables : Obligations.OperandCodeTables :=
  ⟨rfl, rfl, rfl, rfl, rfl, rfl, rfl, rfl, rfl, rfl, rfl, fun _ =>
    ⟨(Bool.not_eq_true' _).to_iff, Iff.rfl, (Bool.not_eq_true' _).to_iff, Iff.rfl⟩⟩

end Sys2Proof
end

section
/-! PROOFS. The invariant (10_state.md rules R15, R21, R23, 60_exceptions.md rule R282): O21, O22, O23. Every
instruction keeps memory canonical and bits 3:0 of F clear by itself; the hook sees to `ime_pend`. -/

namespace Sys2Proof

/-- The prefix row is the one that is not a complete instruction (R60). -/
theorem wellFormed_or_prefixCB (i : Instr) : i.wellFormed = true ∨ i = .prefixCB := by
  by_cases hi : i = .prefixCB
  · exact .inr hi
  · exact .inl (bne_iff_ne.mpr hi)

end Sys2Proof

namespace Sys2Proof.Machine

/-! ### Inversions shared by the case splits over `exec` -/

/-- Where the prefix answers a next state, that is what the selected instruction answers past the second byte (R221). -/
theorem exec_prefixCB_next {s t : State} (h : exec .prefixCB s = .next t) :
    exec (decodeCb (read8 s s.pc)) (s.setPc (s.pc + 1#16)) = .next t := by
  by_cases hpc : s.pc = 0xFFFF#16
  · cases (execPrefixCB_top s hpc).symm.trans h
  · exact (execPrefixCB_ok s hpc).symm.trans h

/-- A conditional instruction is taken, or leaves the state as it is (R67). -/
theorem taken_or_not {s t : State} {cc : Cond} {taken : Result}
    (h : (if s.cond cc then taken else .next s) = .next t) :
    (s.cond cc = true ∧ taken = .next t) ∨ (s.cond cc = false ∧ t = s) := by
  by_cases hcc : s.cond cc = true
  · exact .inl ⟨hcc, (if_pos hcc).symm.trans h⟩
  · cases (if_neg hcc).symm.trans h
    exact .inr ⟨Bool.eq_false_iff.mpr hcc, rfl⟩

/-- A store of a word that answers a next state has stored its two bytes (R35). -/
theorem andThen_write16_next {s t : State} {addr v : Word} (h : andThen (write16 s addr v) .next = .next t) :
    addr ≠ 0xFFFF#16 ∧ t = write8 (write8 s addr (loByte v)) (addr + 1#16) (hiByte v) := by
  by_cases haddr : addr = 0xFFFF#16
  · rw [haddr, write16_top] at h
    cases h
  · rw [write16_ok s v haddr] at h
    cases h
    exact ⟨haddr, rfl⟩

/-! ### F and memory stay as the invariant wants them (R15, R21) -/

/-- The part of the invariant that every instruction keeps by itself: memory canonical, bits 3:0 of F clear. -/
def Settled (s : State) : Prop := Memory.wf s.mem = true ∧ s.f &&& 0x0F#8 = 0#8

/-- Every write of the four flags clears bits 3:0 of F. -/
theorem settled_setFlags {s : State} (hmem : Memory.wf s.mem = true) (z n h c : Bool) :
    Settled (s.setFlags z n h c) :=
  ⟨hmem, packFlags_low z n h c⟩

/-- POP AF clears bits 3:0 of F (D6). -/
theorem settled_setAf {s : State} (hmem : Memory.wf s.mem = true) (v : Word) : Settled (s.setAf v) := by
  refine ⟨hmem, ?_⟩
  rw [State.setAf_f, BitVec.and_assoc]
  exact BitVec.and_zero

theorem Settled.setPc {s : State} (hs : Settled s) (v : Word) : Settled (s.setPc v) := hs

theorem Settled.setSp {s : State} (hs : Settled s) (v : Word) : Settled (s.setSp v) := hs

theorem Settled.putR8 {s : State} (hs : Settled s) (r : R8) (v : Byte) : Settled (s.putR8 r v) := by
  unfold Settled
  rwa [State.putR8_mem, State.putR8_f]

theorem Settled.putR16 {s : State} (hs : Settled s) (rr : R16) (v : Word) : Settled (s.putR16 rr v) := by
  unfold Settled
  rwa [State.putR16_mem, State.putR16_f]

theorem Settled.putR16Stk {s : State} (hs : Settled s) (rr : R16Stk) (v : Word) : Settled (s.putR16Stk rr v) := by
  unfold Settled
  rwa [State.putR16Stk_mem, State.putR16Stk_f]

theorem Settled.write8 {s : State} (hs : Settled s) (addr : Word) (v : Byte) : Settled (write8 s addr v) :=
  ⟨write8_wf s addr v hs.1, hs.2⟩

theorem Settled.writeOperand8 {s : State} (hs : Settled s) (o : Operand8) (v : Byte) :
    Settled (writeOperand8 s o v) := by
  cases o with
  | reg r => exact hs.putR8 r v
  | indHL => exact hs.write8 s.hl v

theorem Settled.push16 {s t : State} {v : Word} (hs : Settled s) (h : push16 s v = .ok t) : Settled t := by
  obtain ⟨hf, _, _, _, hmem⟩ := push16_next h
  exact ⟨hmem hs.1, hf ▸ hs.2⟩

theorem Settled.callTo {s t : State} {target : Word} (hs : Settled s) (h : callTo target s = .next t) : Settled t := by
  obtain ⟨u, hpush, hu⟩ := andThen_push16_next h
  cases hu
  exact (hs.push16 hpush).setPc target

theorem Settled.returnFromStack {s t : State} (hs : Settled s) (h : returnFromStack s = .next t) : Settled t := by
  obtain ⟨_, ht⟩ := andThen_pop16_next h
  cases ht
  exact hs

/-- A complete instruction keeps memory canonical and bits 3:0 of F clear: a case for each way an arm of `exec` ends. -/
theorem Settled.exec_next_of_wellFormed {i : Instr} {s t : State} (hs : Settled s) (hi : i.wellFormed = true)
    (h : exec i s = .next t) : Settled t := by
  cases i with
  | prefixCB => cases hi
  | undefinedD3 | undefinedDB | undefinedDD | undefinedE3 | undefinedE4 | undefinedEB | undefinedEC | undefinedED
  | undefinedF4 | undefinedFC | undefinedFD => cases h
  -- F takes four flags, and memory is left alone.
  | addHlR16 | rlca | rrca | rla | rra | daa | cpl | scf | ccf | addAR8 | addAHl | adcAR8 | adcAHl | subR8 | subHl
  | sbcAR8 | sbcAHl | andR8 | andHl | xorR8 | xorHl | orR8 | orHl | cpR8 | cpHl | addAN8 | adcAN8 | subN8 | sbcAN8
  | andN8 | xorN8 | orN8 | cpN8 | addSpE8 | ldHlSpE8 | bitR8 | bitHl =>
    cases h
    exact settled_setFlags hs.1 _ _ _ _
  -- An 8-bit operand and F are written.
  | incR8 | incHl | decR8 | decHl | rlcR8 | rlcHl | rrcR8 | rrcHl | rlR8 | rlHl | rrR8 | rrHl | slaR8 | slaHl | sraR8
  | sraHl | swapR8 | swapHl | srlR8 | srlHl =>
    cases h
    exact settled_setFlags (hs.writeOperand8 _ _).1 _ _ _ _
  | ldR8N8 | ldR8R8 | ldR8Hl | resR8 | setR8 =>
    cases h
    exact hs.putR8 _ _
  | ldBcA | ldDeA | ldHliA | ldHldA | ldHlN8 | ldHlR8 | ldhCA | ldhA8A | ldA16A | resHl | setHl =>
    cases h
    exact hs.write8 _ _
  | ldR16N16 | incR16 | decR16 =>
    cases h
    exact hs.putR16 _ _
  | ldA16Sp =>
    obtain ⟨_, rfl⟩ := andThen_write16_next h
    exact (hs.write8 _ _).write8 _ _
  | pushR16 | pushAf =>
    obtain ⟨_, hpush, hu⟩ := andThen_push16_next h
    cases hu
    exact hs.push16 hpush
  | popR16 =>
    obtain ⟨_, ht⟩ := andThen_pop16_next h
    cases ht
    exact (hs.setSp _).putR16Stk _ _
  | popAf =>
    obtain ⟨_, ht⟩ := andThen_pop16_next h
    cases ht
    exact settled_setAf hs.1 _
  | reti =>
    obtain ⟨_, ht⟩ := andThen_pop16_next h
    cases ht
    exact hs
  | call | rst => exact hs.callTo h
  | ret => exact hs.returnFromStack h
  | callCc =>
    obtain ⟨_, h⟩ | ⟨_, rfl⟩ := taken_or_not h
    · exact hs.callTo h
    · exact hs
  | retCc =>
    obtain ⟨_, h⟩ | ⟨_, rfl⟩ := taken_or_not h
    · exact hs.returnFromStack h
    · exact hs
  | jrCc | jpCc =>
    obtain ⟨_, h⟩ | ⟨_, rfl⟩ := taken_or_not h
    · cases h
      exact hs
    · exact hs
  | ei =>
    rw [exec_ei] at h
    split at h
    · cases h
      exact hs
    · cases h
      exact hs
  -- What is left updates at most A, HL, PC, SP, `ime` and `ime_pend`.
  | _ =>
    cases h
    exact hs

theorem Settled.exec_next {i : Instr} {s t : State} (hs : Settled s) (h : exec i s = .next t) : Settled t := by
  obtain hi | rfl := wellFormed_or_prefixCB i
  · exact hs.exec_next_of_wellFormed hi h
  · exact (hs.setPc _).exec_next_of_wellFormed (decodeCb_wellFormed _) (exec_prefixCB_next h)

end Sys2Proof.Machine

namespace Sys2Proof.Safety

open Sys2Proof.Machine

/-! ### The invariant over a step -/

/-- A step that answers a next state fetched an instruction, ran it and then the hook (R61). -/
theorem step_next {s u : State} (h : step s = .next u) :
    ∃ i pc t, exec i (s.setPc pc) = .next t ∧ u = imeHook t := by
  unfold step at h
  split at h
  · cases h
  · next i t hfetch =>
    obtain ⟨pc, rfl⟩ := fetchInstr_next hfetch
    obtain ⟨t, ht, hu⟩ := finishStep_eq_next h
    exact ⟨i, pc, t, ht, hu⟩

theorem inv_imeHook {t : State} (ht : Settled t) : Inv (imeHook t) :=
  ⟨by rw [imeHook_mem]; exact ht.1, by rw [imeHook_f]; exact ht.2, imeHook_ne_armed1 t⟩

/-- Settles O21: fetching moves PC alone, the instruction keeps memory and F in order, and after the hook no enable is
freshly armed. -/
theorem stepKeepsTheInvariant : Obligations.StepKeepsTheInvariant := by
  rintro s u ⟨hmem, hf, -⟩ h
  obtain ⟨i, pc, t, ht, rfl⟩ := step_next h
  have hs : Settled s := ⟨hmem, hf⟩
  exact inv_imeHook ((hs.setPc pc).exec_next ht)

/-- Settles O22: no byte is listed, F is 0x00 and no enable is in flight. -/
theorem resetMeetsTheInvariant : Obligations.ResetMeetsTheInvariant :=
  ⟨rfl, rfl, by decide⟩

/-- `load_image` touches neither F nor `ime_pend`, and stores bytes one by one (R49). -/
theorem inv_of_loadImage {bytes : List Byte} {s t : State} (hs : Inv s) (h : loadImage bytes s = .next t) : Inv t := by
  obtain ⟨hmem, hf, hpend⟩ := hs
  rcases Nat.lt_or_ge 65280 bytes.length with hlen | hlen
  · cases (loadImage_long bytes s hlen).symm.trans h
  · cases (loadImage_fits bytes s hlen).symm.trans h
    exact ⟨storeBytes_wf bytes s.mem 256 hmem, hf, hpend⟩

/-- Settles O23, by induction on how the state was reached. -/
theorem reachableStatesMeetTheInvariant : Obligations.ReachableStatesMeetTheInvariant := by
  intro s hs
  induction hs with
  | construct => exact resetMeetsTheInvariant
  | load _ h ih => exact inv_of_loadImage ih h
  | step _ h ih => exact stepKeepsTheInvariant _ _ ih h

end Sys2Proof.Safety
end

section
/-! PROOFS. What an instruction writes (10_state.md rule R26): O27, and with it who writes the interrupt-control fields
(60_exceptions.md rules R280 to R282): O29. -/

namespace Sys2Proof.Safety

open Sys2Proof.Machine

/-! ### Two writes, one after the other -/

/-- The frame of two writes is their frames joined. -/
theorem SameExcept.append {parts parts' : List Part} {s t u : State} (h : SameExcept parts s t)
    (h' : SameExcept parts' t u) : SameExcept (parts ++ parts') s u :=
  (h.mono fun _ => List.mem_append_left parts').trans (h'.mono fun _ => List.mem_append_right parts)

theorem sameExcept_setHl_setFlags (s : State) (v : Word) (z n h c : Bool) :
    SameExcept (.f :: hlParts) s ((s.setHl v).setFlags z n h c) :=
  ((sameExcept_setHl s v).append (sameExcept_setFlags _ z n h c)).mono (by simp [or_comm])

theorem sameExcept_setSp_setFlags (s : State) (v : Word) (z n h c : Bool) :
    SameExcept [.sp, .f] s ((s.setSp v).setFlags z n h c) :=
  (sameExcept_setSp s v).append (sameExcept_setFlags _ z n h c)

/-! ### Group CB -/

/-- The parts a CB instruction may write, read off its second byte (R76). -/
theorem writes_decodeCb (cb : Byte) (s : State) :
    writes s (decodeCb cb) = cbWrites s (operand8 (fieldZ cb)) (cbOpOf cb) := by
  unfold decodeCb
  cases operand8 (fieldZ cb) with
  | reg r =>
    cases cbOpOf cb with
    | rot o => cases o <;> rfl
    | bit b | res b | set b => rfl
  | indHL =>
    cases cbOpOf cb with
    | rot o => cases o <;> rfl
    | bit b | res b | set b => rfl

/-- Moving PC moves no operand. -/
theorem cbWrites_setPc (s : State) (v : Word) (o : Operand8) (op : CbOp) :
    cbWrites (s.setPc v) o op = cbWrites s o op := by
  cases o with
  | reg r => cases op <;> rfl
  | indHL => cases op <;> rfl

/-! ### The frame of every instruction -/

/-- A complete instruction writes nothing but the parts listed for it: a case for each way an arm of `exec` ends. -/
theorem sameExcept_writes_of_wellFormed {i : Instr} {s t : State} (hi : i.wellFormed = true)
    (h : exec i s = .next t) : SameExcept (writes s i) s t := by
  cases i with
  | prefixCB => cases hi
  | undefinedD3 | undefinedDB | undefinedDD | undefinedE3 | undefinedE4 | undefinedEB | undefinedEC | undefinedED
  | undefinedF4 | undefinedFC | undefinedFD => cases h
  | nop | stop | halt =>
    cases h
    exact SameExcept.refl _ s
  | addAR8 | addAHl | adcAR8 | adcAHl | subR8 | subHl | sbcAR8 | sbcAHl | andR8 | andHl | xorR8 | xorHl | orR8 | orHl
  | addAN8 | adcAN8 | subN8 | sbcAN8 | andN8 | xorN8 | orN8 | daa => exact (commitAlu_next h).2.2
  | cpR8 | cpHl | cpN8 => exact (commitCompare_next h).2
  | incR8 | incHl | decR8 | decHl => exact (commitStep8_next h).2
  | rlca | rrca | rla | rra => exact (commitShiftA_next h).2.2
  | cpl =>
    cases h
    exact (sameExcept_setA s _).append (sameExcept_setFlags _ _ _ _ _)
  | scf | ccf =>
    cases h
    exact sameExcept_setFlags s _ _ _ _
  | ldR16N16 | incR16 | decR16 =>
    cases h
    exact sameExcept_putR16 s _ _
  | addHlR16 | ldHlSpE8 =>
    cases h
    exact sameExcept_setHl_setFlags s _ _ _ _ _
  | addSpE8 =>
    cases h
    exact sameExcept_setSp_setFlags s _ _ _ _ _
  | ldR8N8 | ldR8R8 | ldR8Hl | resR8 | setR8 =>
    cases h
    exact sameExcept_putR8 s _ _
  | ldABc | ldADe | ldhAC | ldhAA8 | ldAA16 =>
    cases h
    exact sameExcept_setA s _
  | ldBcA | ldDeA | ldHlN8 | ldHlR8 | ldhCA | ldhA8A | ldA16A | resHl | setHl =>
    cases h
    exact sameExcept_write8 s _ _
  | ldHliA | ldHldA =>
    cases h
    exact (sameExcept_write8 s _ _).setHl _
  | ldAHli | ldAHld =>
    cases h
    exact (sameExcept_setA s _).setHl _
  | ldA16Sp =>
    obtain ⟨haddr, rfl⟩ := andThen_write16_next h
    exact sameExcept_write8_write8 s _ _ _ haddr
  | ldSpHl =>
    cases h
    exact sameExcept_setSp s _
  | pushR16 | pushAf =>
    obtain ⟨_, hpush, hu⟩ := andThen_push16_next h
    cases hu
    exact sameExcept_push16 hpush
  | popR16 =>
    obtain ⟨_, ht⟩ := andThen_pop16_next h
    cases ht
    exact (sameExcept_setSp s _).append (sameExcept_putR16Stk _ _ _)
  | popAf =>
    obtain ⟨_, ht⟩ := andThen_pop16_next h
    cases ht
    exact (sameExcept_setSp s _).append (sameExcept_setAf _ _)
  | ret => exact returnFromStack_next h
  | reti =>
    obtain ⟨_, ht⟩ := andThen_pop16_next h
    cases ht
    exact (((sameExcept_setSp s _).append (sameExcept_setPc _ _)).append (sameExcept_setIme _ true)).mono
      (by simp [writes])
  | call | rst => exact (callTo_next h).2
  | jr | jp | jpHl =>
    cases h
    exact sameExcept_setPc s _
  | jrCc | jpCc =>
    obtain ⟨hcc, h⟩ | ⟨_, rfl⟩ := taken_or_not h
    · cases h
      rw [writes, if_pos hcc]
      exact sameExcept_setPc s _
    · exact SameExcept.refl _ _
  | callCc =>
    obtain ⟨hcc, h⟩ | ⟨_, rfl⟩ := taken_or_not h
    · rw [writes, if_pos hcc]
      exact (callTo_next h).2
    · exact SameExcept.refl _ _
  | retCc =>
    obtain ⟨hcc, h⟩ | ⟨_, rfl⟩ := taken_or_not h
    · rw [writes, if_pos hcc]
      exact returnFromStack_next h
    · exact SameExcept.refl _ _
  | di =>
    cases h
    exact (sameExcept_setIme s false).append (sameExcept_setImePend _ .none)
  | ei =>
    rw [exec_ei] at h
    split at h
    · cases h
      exact sameExcept_setImePend s .armed1
    · cases h
      exact SameExcept.refl _ _
  | rlcR8 | rlcHl | rrcR8 | rrcHl | rlR8 | rlHl | rrR8 | rrHl | slaR8 | slaHl | sraR8 | sraHl | swapR8 | swapHl | srlR8
  | srlHl => exact (commitShift_next h).2
  | bitR8 | bitHl => exact (commitBit_next h).2

/-- Settles O27: the prefix writes PC and what the CB instruction it selects writes. -/
theorem nothingElseIsWritten : Obligations.NothingElseIsWritten := by
  intro i s t h
  obtain hi | rfl := wellFormed_or_prefixCB i
  · exact sameExcept_writes_of_wellFormed hi h
  · have hcb := sameExcept_writes_of_wellFormed (decodeCb_wellFormed _) (exec_prefixCB_next h)
    rw [writes_decodeCb, cbWrites_setPc] at hcb
    exact (sameExcept_setPc s _).append hcb

/-! ### Who writes the interrupt-control fields (R280 to R282) -/

/-- The list names neither `ime` nor `ime_pend`. -/
def NoInterruptControl (parts : List Part) : Prop := .ime ∉ parts ∧ .imePend ∉ parts

theorem noInterruptControl_cbWrites (s : State) (o : Operand8) (op : CbOp) : NoInterruptControl (cbWrites s o op) := by
  cases o <;> cases op <;> simp [NoInterruptControl, cbWrites, operandPart]

theorem noInterruptControl_r16Parts (rr : R16) : NoInterruptControl (r16Parts rr) := by
  cases rr <;> simp [NoInterruptControl, r16Parts]

theorem noInterruptControl_ite {c : Bool} {parts : List Part} (h : NoInterruptControl parts) :
    NoInterruptControl (if c then parts else []) := by
  split
  · exact h
  · simp [NoInterruptControl]

/-- Only DI, RETI and EI list one of the two fields. -/
theorem noInterruptControl_writes {i : Instr} (s : State) (hdi : i ≠ .di) (hreti : i ≠ .reti) (hei : i ≠ .ei) :
    NoInterruptControl (writes s i) := by
  cases i with
  | di => exact absurd rfl hdi
  | reti => exact absurd rfl hreti
  | ei => exact absurd rfl hei
  | ldR16N16 rr | incR16 rr | decR16 rr => exact noInterruptControl_r16Parts rr
  | popR16 rr => cases rr <;> simp [NoInterruptControl, writes, r16StkParts]
  | jrCc | jpCc | retCc | callCc =>
    exact noInterruptControl_ite (by simp [NoInterruptControl, pushedBytes])
  | rlcR8 | rlcHl | rrcR8 | rrcHl | rlR8 | rlHl | rrR8 | rrHl | slaR8 | slaHl | sraR8 | sraHl | swapR8 | swapHl | srlR8
  | srlHl | bitR8 | bitHl | resR8 | resHl | setR8 | setHl =>
    rw [writes]
    exact noInterruptControl_cbWrites s _ _
  | prefixCB =>
    obtain ⟨hime, hpend⟩ := noInterruptControl_cbWrites s (operand8 (fieldZ (read8 s s.pc))) (cbOpOf (read8 s s.pc))
    exact ⟨by simp [writes, hime], by simp [writes, hpend]⟩
  | _ => simp [NoInterruptControl, writes, hlParts, pushedBytes]

/-- What an instruction may do to the two fields: what O29 says of each. -/
theorem exec_next_interruptControl {i : Instr} {s t : State} (h : exec i s = .next t) :
    (i ≠ .di → i ≠ .reti → t.ime = s.ime) ∧ (i = .di → t.ime = false) ∧ (i = .reti → t.ime = true) ∧
      (i ≠ .di → i ≠ .ei → t.imePend = s.imePend) := by
  obtain ⟨_, _, _, _, hime, hpend, _⟩ := nothingElseIsWritten i s t h
  by_cases hdi : i = .di
  · subst hdi
    cases h
    simp
  by_cases hreti : i = .reti
  · subst hreti
    obtain ⟨_, ht⟩ := andThen_pop16_next h
    cases ht
    simp
  by_cases hei : i = .ei
  · subst hei
    simpa using hime (by simp [writes])
  · obtain ⟨hime', hpend'⟩ := noInterruptControl_writes s hdi hreti hei
    exact ⟨fun _ _ => hime hime', fun e => absurd e hdi, fun e => absurd e hreti, fun _ _ => hpend hpend'⟩

/-- Settles O29: the frames of O27 name `ime` and `ime_pend` for DI, RETI and EI alone, and the hook goes by
`ime_pend`. -/
theorem onlyDiRetiEiWriteInterruptControl : Obligations.OnlyDiRetiEiWriteInterruptControl :=
  ⟨fun _ _ _ h => exec_next_interruptControl h, fun s => ⟨imeHook_armed1 s, imeHook_armed0 s, imeHook_none s⟩⟩

end Sys2Proof.Safety
end

section
/-! PROOFS. Where an instruction faults (60_exceptions.md rules R270 to R278): O26. -/

namespace Sys2Proof.Machine

open Sys2Proof.Safety

/-! ### Why an instruction faults -/

/-- The causes of the faults that an instruction `i` meets in state `s` (R270 to R276). -/
inductive FaultCause (s : State) : Instr → Fault → Prop where
  | pushLow {i : Instr} : Pushes s i → s.sp < 2#16 → FaultCause s i .stackOverflow
  | popSecond {i : Instr} : Pops s i → s.sp = 0xFFFE#16 → FaultCause s i .stackOverflow
  | popTop {i : Instr} : Pops s i → s.sp = 0xFFFF#16 → FaultCause s i .outOfBounds
  | storeTop : FaultCause s (.ldA16Sp 0xFFFF#16) .outOfBounds
  | undefined {i : Instr} {op : Byte} :
    instrFormat i = .illegal → encode i = [op] → FaultCause s i (.undefinedOpcode op)
  | prefixTop : s.pc = 0xFFFF#16 → FaultCause s .prefixCB .counterOverflow

/-- Each answer of the instruction is a next state, or a fault that has its cause. -/
def FaultsForCause (i : Instr) (s : State) : Prop :=
  (∃ t, exec i s = .next t) ∨ ∃ k, exec i s = .fault k ∧ FaultCause s i k

section
variable {i : Instr} {s : State}

/-! ### Every fault has its cause -/

theorem faultsForCause_of_push16 {v : Word} {k : State → Result} (hi : Pushes s i)
    (hexec : exec i s = andThen (push16 s v) k) (hk : ∀ u, ∃ t, k u = .next t) : FaultsForCause i s := by
  rcases push16_cases s v with ⟨hsp, hpush⟩ | ⟨_, hpush⟩
  · exact .inr ⟨_, fault_of_push16_low hexec hsp, .pushLow hi hsp⟩
  · obtain ⟨t, ht⟩ := hk _
    exact .inl ⟨t, by rw [hexec, hpush, andThen_ok, ht]⟩

theorem faultsForCause_of_pop16 {k : Word × State → Result} (hi : Pops s i)
    (hexec : exec i s = andThen (pop16 s) k) (hk : ∀ p, ∃ t, k p = .next t) : FaultsForCause i s := by
  rcases pop16_cases s with ⟨_, hpop⟩ | ⟨hsp, _⟩ | ⟨hsp, _⟩
  · obtain ⟨t, ht⟩ := hk _
    exact .inl ⟨t, by rw [hexec, hpop, andThen_ok, ht]⟩
  · exact .inr ⟨_, fault_of_pop16_second hexec hsp, .popSecond hi hsp⟩
  · exact .inr ⟨_, fault_of_pop16_top hexec hsp, .popTop hi hsp⟩

theorem faultsForCause_of_illegal {op : Byte} (hi : instrFormat i = .illegal) (henc : encode i = [op]) :
    FaultsForCause i s :=
  .inr ⟨_, exec_of_illegal hi henc s, .undefined hi henc⟩

/-- A conditional instruction that is not taken completes. -/
theorem faultsForCause_of_cond {cc : Cond} {taken : Result} (hexec : exec i s = if s.cond cc then taken else .next s)
    (htaken : s.cond cc = true → exec i s = taken → FaultsForCause i s) : FaultsForCause i s := by
  by_cases hcc : s.cond cc = true
  · exact htaken hcc (hexec.trans (if_pos hcc))
  · exact .inl ⟨s, hexec.trans (if_neg hcc)⟩

end

theorem faultsForCause_ldA16Sp (a16 : Word) (s : State) : FaultsForCause (.ldA16Sp a16) s := by
  have hexec : exec (.ldA16Sp a16) s = andThen (write16 s a16 s.sp) .next := rfl
  by_cases ha : a16 = 0xFFFF#16
  · subst ha
    exact .inr ⟨_, hexec, .storeTop⟩
  · rw [write16_ok s s.sp ha] at hexec
    exact .inl ⟨_, hexec⟩

theorem faultsForCause_prefixCB (s : State) : FaultsForCause .prefixCB s := by
  by_cases hpc : s.pc = 0xFFFF#16
  · exact .inr ⟨_, execPrefixCB_top s hpc, .prefixTop hpc⟩
  · obtain ⟨t, ht⟩ := exec_decodeCb_next (read8 s s.pc) (s.setPc (s.pc + 1#16))
    exact .inl ⟨t, (execPrefixCB_ok s hpc).trans ht⟩

/-- An instruction answers a next state, or faults for a cause: a case for each way an arm of `exec` ends. -/
theorem faultsForCause (i : Instr) (s : State) : FaultsForCause i s := by
  cases i with
  | pushAf | pushR16 | call | rst => exact faultsForCause_of_push16 (by simp [Pushes]) rfl fun _ => ⟨_, rfl⟩
  | popAf | popR16 | ret | reti => exact faultsForCause_of_pop16 (by simp [Pops]) rfl fun _ => ⟨_, rfl⟩
  | callCc cc a16 =>
    exact faultsForCause_of_cond rfl fun hcc hexec =>
      faultsForCause_of_push16 (by simp [Pushes, hcc]) hexec fun _ => ⟨_, rfl⟩
  | retCc cc =>
    exact faultsForCause_of_cond rfl fun hcc hexec =>
      faultsForCause_of_pop16 (by simp [Pops, hcc]) hexec fun _ => ⟨_, rfl⟩
  | jrCc | jpCc => exact faultsForCause_of_cond rfl fun _ hexec => .inl ⟨_, hexec⟩
  | ldA16Sp a16 => exact faultsForCause_ldA16Sp a16 s
  | prefixCB => exact faultsForCause_prefixCB s
  | undefinedD3 | undefinedDB | undefinedDD | undefinedE3 | undefinedE4 | undefinedEB | undefinedEC | undefinedED
  | undefinedF4 | undefinedFC | undefinedFD => exact faultsForCause_of_illegal rfl rfl
  | ei =>
    refine .inl ?_
    rw [exec_ei]
    split
    · exact ⟨_, rfl⟩
    · exact ⟨_, rfl⟩
  | _ => exact .inl ⟨_, rfl⟩

/-! ### Every cause makes its fault -/

section
variable {i : Instr} {s : State}

/-- An instruction that pushes begins with the push. -/
theorem exec_of_pushes (hi : Pushes s i) : ∃ v k, exec i s = andThen (push16 s v) k := by
  obtain rfl | ⟨rr, rfl⟩ | ⟨a16, rfl⟩ | ⟨t, rfl⟩ | ⟨cc, a16, rfl, hcc⟩ := hi
  · exact ⟨_, _, rfl⟩
  · exact ⟨_, _, rfl⟩
  · exact ⟨_, _, rfl⟩
  · exact ⟨_, _, rfl⟩
  · exact ⟨_, _, exec_callCc_taken a16 hcc⟩

/-- An instruction that pops begins with the pop. -/
theorem exec_of_pops (hi : Pops s i) : ∃ k, exec i s = andThen (pop16 s) k := by
  obtain rfl | ⟨rr, rfl⟩ | rfl | rfl | ⟨cc, rfl, hcc⟩ := hi
  · exact ⟨_, rfl⟩
  · exact ⟨_, rfl⟩
  · exact ⟨_, rfl⟩
  · exact ⟨_, rfl⟩
  · exact ⟨_, exec_retCc_taken hcc⟩

theorem exec_of_faultCause {k : Fault} (h : FaultCause s i k) : exec i s = .fault k := by
  cases h with
  | pushLow hi hsp =>
    obtain ⟨_, _, hexec⟩ := exec_of_pushes hi
    exact fault_of_push16_low hexec hsp
  | popSecond hi hsp =>
    obtain ⟨_, hexec⟩ := exec_of_pops hi
    exact fault_of_pop16_second hexec hsp
  | popTop hi hsp =>
    obtain ⟨_, hexec⟩ := exec_of_pops hi
    exact fault_of_pop16_top hexec hsp
  | storeTop => rfl
  | undefined hi henc => exact exec_of_illegal hi henc s
  | prefixTop hpc => exact execPrefixCB_top s hpc

theorem exec_eq_fault_iff {k : Fault} : exec i s = .fault k ↔ FaultCause s i k := by
  refine ⟨fun h => ?_, exec_of_faultCause⟩
  rcases faultsForCause i s with ⟨t, ht⟩ | ⟨k', hk', hcause⟩
  · cases ht.symm.trans h
  · cases hk'.symm.trans h
    exact hcause

theorem exec_ne_refused (k : Refusal) : exec i s ≠ .refused k := by
  intro h
  rcases faultsForCause i s with ⟨t, ht⟩ | ⟨k', hk', -⟩
  · cases ht.symm.trans h
  · cases hk'.symm.trans h

/-- An undefined opcode is encoded in one byte (R222). -/
theorem encode_of_illegal (hi : instrFormat i = .illegal) : ∃ op, encode i = [op] := by
  cases i with
  | undefinedD3 | undefinedDB | undefinedDD | undefinedE3 | undefinedE4 | undefinedEB | undefinedEC | undefinedED
  | undefinedF4 | undefinedFC | undefinedFD => exact ⟨_, rfl⟩
  | _ => cases hi

/-! ### The causes of each fault -/

theorem faultCause_stackOverflow_iff :
    FaultCause s i .stackOverflow ↔ (Pushes s i ∧ s.sp < 2#16) ∨ (Pops s i ∧ s.sp = 0xFFFE#16) := by
  refine ⟨fun h => ?_, ?_⟩
  · cases h with
    | pushLow hi hsp => exact .inl ⟨hi, hsp⟩
    | popSecond hi hsp => exact .inr ⟨hi, hsp⟩
  · rintro (⟨hi, hsp⟩ | ⟨hi, hsp⟩)
    · exact .pushLow hi hsp
    · exact .popSecond hi hsp

theorem faultCause_outOfBounds_iff :
    FaultCause s i .outOfBounds ↔ i = .ldA16Sp 0xFFFF#16 ∨ (Pops s i ∧ s.sp = 0xFFFF#16) := by
  refine ⟨fun h => ?_, ?_⟩
  · cases h with
    | popTop hi hsp => exact .inr ⟨hi, hsp⟩
    | storeTop => exact .inl rfl
  · rintro (rfl | ⟨hi, hsp⟩)
    · exact .storeTop
    · exact .popTop hi hsp

theorem exists_faultCause_undefinedOpcode_iff :
    (∃ op, FaultCause s i (.undefinedOpcode op)) ↔ instrFormat i = .illegal := by
  refine ⟨?_, fun hi => ?_⟩
  · rintro ⟨op, h⟩
    cases h with
    | undefined hi _ => exact hi
  · obtain ⟨op, henc⟩ := encode_of_illegal hi
    exact ⟨op, .undefined hi henc⟩

theorem faultCause_counterOverflow_iff :
    FaultCause s i .counterOverflow ↔ i = .prefixCB ∧ s.pc = 0xFFFF#16 := by
  refine ⟨fun h => ?_, ?_⟩
  · cases h with
    | prefixTop hpc => exact ⟨rfl, hpc⟩
  · rintro ⟨rfl, hpc⟩
    exact .prefixTop hpc

theorem not_faultCause_capacityExceeded : ¬ FaultCause s i .capacityExceeded := nofun

end

end Sys2Proof.Machine

namespace Sys2Proof.Safety

open Sys2Proof.Machine

/-- Settles O26: `exec` faults exactly where there is a cause, and each fault has its own causes. -/
theorem faultsOnlyWhereTheSpecSays : Obligations.FaultsOnlyWhereTheSpecSays := by
  intro i s
  simp only [ne_eq, exec_eq_fault_iff]
  exact ⟨faultCause_stackOverflow_iff, faultCause_outOfBounds_iff, exists_faultCause_undefinedOpcode_iff,
    faultCause_counterOverflow_iff, not_faultCause_capacityExceeded, exec_ne_refused⟩

end Sys2Proof.Safety
end

section
/-! PROOFS. No instruction's effect depends on `ime` or `ime_pend` (60_exceptions.md rule R280, decision D13): O30. -/

namespace Sys2Proof.Machine

/-! ### Answers up to the interrupt-control fields -/

/-- The state with the interrupt-control fields made blank. -/
def State.blankInterrupt (s : State) : State := { s with ime := false, imePend := .none }

/-- The answer with the interrupt-control fields of its next state made blank. -/
def blankResult : Result → Result
  | .next t => .next t.blankInterrupt
  | .fault k => .fault k
  | .refused k => .refused k

/-- The two fields do not show in the instruction's answer, themselves apart. -/
def Oblivious (i : Instr) (s : State) : Prop := blankResult (exec i s) = blankResult (exec i s.blankInterrupt)

/-! ### Operations do not look at the fields -/

theorem State.blankInterrupt_cond (s : State) (cc : Cond) : s.blankInterrupt.cond cc = s.cond cc := by
  cases cc <;> rfl

theorem blankResult_of_write16 (s : State) (addr v : Word) :
    blankResult (andThen (write16 s addr v) .next) = blankResult (andThen (write16 s.blankInterrupt addr v) .next) := by
  by_cases haddr : addr = 0xFFFF#16
  · subst haddr
    rfl
  · rw [write16_ok s v haddr, write16_ok _ v haddr]
    rfl

theorem blankResult_of_push16 (s : State) (v : Word) {k : State → Result}
    (hk : ∀ t, blankResult (k t) = blankResult (k t.blankInterrupt)) :
    blankResult (andThen (push16 s v) k) = blankResult (andThen (push16 s.blankInterrupt v) k) := by
  rcases push16_cases s v with ⟨hsp, hpush⟩ | ⟨hsp, hpush⟩
  · rw [hpush, push16_low s.blankInterrupt v hsp]
  · rw [hpush, push16_ok s.blankInterrupt v hsp]
    exact hk _

theorem blankResult_of_pop16 (s : State) {k : Word × State → Result}
    (hk : ∀ v t, blankResult (k (v, t)) = blankResult (k (v, t.blankInterrupt))) :
    blankResult (andThen (pop16 s) k) = blankResult (andThen (pop16 s.blankInterrupt) k) := by
  rcases pop16_cases s with ⟨hsp, hpop⟩ | ⟨hsp, hpop⟩ | ⟨hsp, hpop⟩
  · rw [hpop, pop16_ok s.blankInterrupt hsp]
    exact hk _ _
  · rw [hpop, pop16_second s.blankInterrupt hsp]
  · rw [hpop, pop16_top s.blankInterrupt hsp]

theorem blankResult_of_cond (s : State) (cc : Cond) {taken : State → Result}
    (htaken : blankResult (taken s) = blankResult (taken s.blankInterrupt)) :
    blankResult (if s.cond cc then taken s else .next s) =
      blankResult (if s.blankInterrupt.cond cc then taken s.blankInterrupt else .next s.blankInterrupt) := by
  rw [State.blankInterrupt_cond]
  split
  · exact htaken
  · rfl

theorem blankResult_callTo (target : Word) (s : State) :
    blankResult (callTo target s) = blankResult (callTo target s.blankInterrupt) :=
  blankResult_of_push16 s s.pc fun _ => rfl

theorem blankResult_returnFromStack (s : State) :
    blankResult (returnFromStack s) = blankResult (returnFromStack s.blankInterrupt) :=
  blankResult_of_pop16 s fun _ _ => rfl

/-! ### Every instruction -/

/-- EI, which does look at `ime_pend`, writes no other field. -/
theorem oblivious_ei (s : State) : Oblivious .ei s := by
  have hei : ∀ u, blankResult (exec .ei u) = .next u.blankInterrupt := by
    intro u
    rw [exec_ei]
    split <;> rfl
  exact (hei s).trans (hei s.blankInterrupt).symm

/-- A case for each way an arm of `exec` ends; where no test comes first, both sides are the same write. -/
theorem oblivious_of_wellFormed {i : Instr} (hi : i.wellFormed = true) (s : State) : Oblivious i s := by
  cases i with
  | prefixCB => cases hi
  | ldR8R8 dst src => cases dst <;> cases src <;> rfl
  | incR8 r | decR8 r | ldR8N8 r | ldR8Hl r | ldHlR8 r | addAR8 r | adcAR8 r | subR8 r | sbcAR8 r | andR8 r | xorR8 r
  | orR8 r | cpR8 r | rlcR8 r | rrcR8 r | rlR8 r | rrR8 r | slaR8 r | sraR8 r | swapR8 r | srlR8 r | bitR8 _ r
  | resR8 _ r | setR8 _ r => cases r <;> rfl
  | ldR16N16 rr | incR16 rr | decR16 rr | addHlR16 rr => cases rr <;> rfl
  | jrCc cc e8 => exact blankResult_of_cond (taken := execJr e8) s cc rfl
  | jpCc cc a16 => exact blankResult_of_cond (taken := execJp a16) s cc rfl
  | callCc cc a16 => exact blankResult_of_cond s cc (blankResult_callTo a16 s)
  | retCc cc => exact blankResult_of_cond s cc (blankResult_returnFromStack s)
  | call | rst => exact blankResult_callTo _ s
  | ret => exact blankResult_returnFromStack s
  | reti | popAf => exact blankResult_of_pop16 s fun _ _ => rfl
  | popR16 rr => cases rr <;> exact blankResult_of_pop16 s fun _ _ => rfl
  | pushR16 rr => cases rr <;> exact blankResult_of_push16 s _ fun _ => rfl
  | pushAf => exact blankResult_of_push16 s _ fun _ => rfl
  | ldA16Sp a16 => exact blankResult_of_write16 s a16 s.sp
  | ei => exact oblivious_ei s
  | _ => rfl

theorem oblivious (i : Instr) (s : State) : Oblivious i s := by
  obtain hi | rfl := wellFormed_or_prefixCB i
  · exact oblivious_of_wellFormed hi s
  · unfold Oblivious
    by_cases hpc : s.pc = 0xFFFF#16
    · exact congrArg blankResult ((execPrefixCB_top s hpc).trans (execPrefixCB_top s.blankInterrupt hpc).symm)
    · have hcb : Oblivious _ _ := oblivious_of_wellFormed (decodeCb_wellFormed (read8 s s.pc)) (s.setPc (s.pc + 1#16))
      exact (congrArg blankResult (execPrefixCB_ok s hpc)).trans
        (hcb.trans (congrArg blankResult (execPrefixCB_ok s.blankInterrupt hpc)).symm)

/-! ### Reading an answer back from its blank form -/

/-- Answers that agree once blank are next states that agree but for the two fields, or the same fault. -/
theorem next_of_blankResult_eq {x : Result} {t : State} (h : blankResult x = .next t.blankInterrupt) :
    ∃ u, x = .next u ∧ { u with ime := t.ime, imePend := t.imePend } = t := by
  cases x with
  | next u =>
    refine ⟨u, rfl, ?_⟩
    have hblank : u.blankInterrupt = t.blankInterrupt := Host.Outcome.next.inj h
    exact congrArg (fun w : State => { w with ime := t.ime, imePend := t.imePend }) hblank
  | fault k => cases h
  | refused k => cases h

theorem fault_of_blankResult_eq {x : Result} {k : Fault} (h : blankResult x = .fault k) : x = .fault k := by
  cases x with
  | next u => cases h
  | fault k' => exact h
  | refused k' => cases h

end Sys2Proof.Machine

namespace Sys2Proof.Safety

open Sys2Proof.Machine

/-- Settles O30: made blank, the answer is the one from the state with the fields made blank, whatever they were. -/
theorem interruptControlNeverSteersAnInstruction : Obligations.InterruptControlNeverSteersAnInstruction := by
  intro i s enabled pend
  have hsame : blankResult (exec i { s with ime := enabled, imePend := pend }) = blankResult (exec i s) :=
    (oblivious i { s with ime := enabled, imePend := pend }).trans (oblivious i s).symm
  refine ⟨fun t ht => next_of_blankResult_eq ?_, fun k hk => fault_of_blankResult_eq ?_⟩
  · rw [hsame, ht, blankResult]
  · rw [hsame, hk, blankResult]

end Sys2Proof.Safety
end

section
/-! PROOFS. The state after construct, words in memory, the flag byte, `inc8` and `dec8` (10_state.md rules R14, R25,
20_memory.md rules R34, R35, 40_arith_helpers.md rules R94, R95): O1, O4, O8, O10. -/

namespace Sys2Proof.Safety

open Sys2Proof.Machine

/-! ### After construct (R25) -/

/-- Settles O1: each field is read off `State.reset`, and no byte of memory is listed. -/
theorem resetIsTheAllZeroState : Obligations.ResetIsTheAllZeroState :=
  ⟨fun r => by cases r <;> rfl, rfl, rfl, rfl, rfl, rfl, rfl, rfl, fun _ => rfl, rfl, rfl⟩

/-! ### Words in memory (R34, R35) -/

/-- What a store of a word leaves in memory: its low byte at the address, its high byte after it, no other change. -/
theorem write8_write8_word (s : State) {addr : Word} (v : Word) (h : addr ≠ 0xFFFF#16) :
    let t := write8 (write8 s addr (loByte v)) (addr + 1#16) (hiByte v)
    read8 t addr = loByte v ∧ read8 t (addr + 1#16) = hiByte v ∧ SameExcept [.bytes addr 2] s t := by
  have hne : addr ≠ addr + 1#16 := by bv_omega
  exact ⟨by simp [hne], by simp, sameExcept_write8_write8 s addr _ _ h⟩

/-- Settles O4: the two bytes of a word, below the top of memory and at it. -/
theorem wordsAreLittleEndian : Obligations.WordsAreLittleEndian := by
  refine fun s addr v => ⟨fun h => ⟨⟨_, read16_ok s h, leWord_toNat _ _⟩, ?_⟩, ?_⟩
  · obtain ⟨hlo, hhi, hframe⟩ := write8_write8_word s v h
    exact ⟨_, write16_ok s v h, by rw [hlo, loByte_toNat], by rw [hhi, hiByte_toNat], hframe⟩
  · rintro rfl
    exact ⟨read16_top s, write16_top s v⟩

end Sys2Proof.Safety

namespace Sys2Proof.Machine

/-! ### The flag byte (R14) -/

theorem packFlags_toNat : ∀ z n h c : Bool,
    (packFlags z n h c).toNat = 128 * z.toNat + 64 * n.toNat + 32 * h.toNat + 16 * c.toNat := by
  decide

/-- Settles O8: a bit of F is a digit of its number in base 2. -/
theorem flagByteLayout : Obligations.FlagByteLayout :=
  ⟨packFlags_toNat, fun _ =>
    ⟨Nat.testBit_eq_decide_div_mod_eq, Nat.testBit_eq_decide_div_mod_eq, Nat.testBit_eq_decide_div_mod_eq,
      Nat.testBit_eq_decide_div_mod_eq⟩⟩

/-! ### `inc8` and `dec8` (R94, R95) -/

theorem inc8_r_toNat (a : Byte) : (inc8 a).r.toNat = (a.toNat + 1) % 256 := BitVec.toNat_ofNat _ 8

theorem dec8_r_toNat (a : Byte) : (dec8 a).r.toNat = (a.toNat + 255) % 256 := by
  simp only [dec8, BitVec.toNat_ofInt]
  omega

theorem inc8_z_iff (a : Byte) : (inc8 a).z = true ↔ a.toNat = 255 := by
  have hz : (inc8 a).z = true ↔ (inc8 a).r.toNat = 0 := beq_zero_iff_toNat _
  rw [hz, inc8_r_toNat]
  omega

theorem dec8_z_iff (a : Byte) : (dec8 a).z = true ↔ a.toNat = 1 := by
  have hz : (dec8 a).z = true ↔ (dec8 a).r.toNat = 0 := beq_zero_iff_toNat _
  rw [hz, dec8_r_toNat]
  omega

/-- Settles O10: each result modulo 256, each flag from its own test. -/
theorem incrementAndDecrementHelpers : Obligations.IncrementAndDecrementHelpers :=
  fun a =>
    ⟨inc8_r_toNat a, inc8_z_iff a, rfl, decide_eq_true_iff, dec8_r_toNat a, dec8_z_iff a, rfl, decide_eq_true_iff⟩

end Sys2Proof.Machine
end

section
/-! PROOFS. Stores and loads of the high page and of SP, POP AF, 16-bit INC and DEC, SP plus a displacement, logic and
the one-byte operations on A (41_group0.md, 43_group2.md, 44_group3_data.md): O38, O39, O42, O43, O45, O50, O52. -/

namespace Sys2Proof.Machine

/-! ### The arms -/

theorem exec_ldA16Sp (a16 : Word) (s : State) : exec (.ldA16Sp a16) s = andThen (write16 s a16 s.sp) .next := rfl

theorem exec_ldhCA (s : State) : exec .ldhCA s = .next (write8 s (highPage s.c) s.a) := rfl

theorem exec_ldhA8A (a8 : Byte) (s : State) : exec (.ldhA8A a8) s = .next (write8 s (highPage a8) s.a) := rfl

theorem exec_ldhAC (s : State) : exec .ldhAC s = .next (s.setA (read8 s (highPage s.c))) := rfl

theorem exec_ldhAA8 (a8 : Byte) (s : State) : exec (.ldhAA8 a8) s = .next (s.setA (read8 s (highPage a8))) := rfl

theorem exec_popAf (s : State) : exec .popAf s = andThen (pop16 s) fun p => .next (p.2.setAf p.1) := rfl

theorem exec_incR16 (rr : R16) (s : State) : exec (.incR16 rr) s = .next (s.putR16 rr (s.getR16 rr + 1#16)) := rfl

theorem exec_decR16 (rr : R16) (s : State) : exec (.decR16 rr) s = .next (s.putR16 rr (s.getR16 rr - 1#16)) := rfl

theorem exec_addSpE8 (e8 : Byte) (s : State) :
    exec (.addSpE8 e8) s =
      .next ((s.setSp (addsp s.sp e8).r).setFlags false false (addsp s.sp e8).h (addsp s.sp e8).c) := rfl

theorem exec_ldHlSpE8 (e8 : Byte) (s : State) :
    exec (.ldHlSpE8 e8) s =
      .next ((s.setHl (addsp s.sp e8).r).setFlags false false (addsp s.sp e8).h (addsp s.sp e8).c) := rfl

theorem exec_andR8 (r : R8) (s : State) : exec (.andR8 r) s = commitAlu (and8 s.a (s.getR8 r)) s := rfl

theorem exec_xorR8 (r : R8) (s : State) : exec (.xorR8 r) s = commitAlu (xor8 s.a (s.getR8 r)) s := rfl

theorem exec_orR8 (r : R8) (s : State) : exec (.orR8 r) s = commitAlu (or8 s.a (s.getR8 r)) s := rfl

theorem exec_andHl (s : State) : exec .andHl s = commitAlu (and8 s.a (read8 s s.hl)) s := rfl

theorem exec_xorHl (s : State) : exec .xorHl s = commitAlu (xor8 s.a (read8 s s.hl)) s := rfl

theorem exec_orHl (s : State) : exec .orHl s = commitAlu (or8 s.a (read8 s s.hl)) s := rfl

theorem exec_andN8 (n8 : Byte) (s : State) : exec (.andN8 n8) s = commitAlu (and8 s.a n8) s := rfl

theorem exec_xorN8 (n8 : Byte) (s : State) : exec (.xorN8 n8) s = commitAlu (xor8 s.a n8) s := rfl

theorem exec_orN8 (n8 : Byte) (s : State) : exec (.orN8 n8) s = commitAlu (or8 s.a n8) s := rfl

theorem exec_rlca (s : State) : exec .rlca s = commitShiftA (rlc s.a) s := rfl

theorem exec_rrca (s : State) : exec .rrca s = commitShiftA (rrc s.a) s := rfl

theorem exec_rla (s : State) : exec .rla s = commitShiftA (rl s.a s.flagC) s := rfl

theorem exec_rra (s : State) : exec .rra s = commitShiftA (rr s.a s.flagC) s := rfl

theorem exec_daa (s : State) : exec .daa s = commitAlu (daa s.a s.flagN s.flagH s.flagC) s := rfl

theorem exec_cpl (s : State) : exec .cpl s = .next ((s.setA (~~~s.a)).setFlags s.flagZ true true s.flagC) := rfl

theorem exec_scf (s : State) : exec .scf s = .next (s.setFlags s.flagZ false false true) := rfl

theorem exec_ccf (s : State) : exec .ccf s = .next (s.setFlags s.flagZ false false (!s.flagC)) := rfl

/-! ### Addresses and displacements (R71) -/

/-- The high-page address takes its offset unsigned (D22). -/
theorem highPage_toNat (offset : Byte) : (highPage offset).toNat = 0xFF00 + offset.toNat := by
  have hlt := offset.isLt
  rw [highPage, BitVec.toNat_add, BitVec.toNat_setWidth, BitVec.toNat_ofNat]
  omega

/-- Adding a sign-extended byte moves a word by the signed byte, modulo 65536 (D4, D5). -/
theorem add_signExtend16_toNat (w : Word) (e8 : Byte) :
    ((w + signExtend16 e8).toNat : Int) = ((w.toNat : Int) + e8.toInt) % 65536 := by
  have hext : (signExtend16 e8).toInt = e8.toInt := BitVec.toInt_signExtend_of_le (by decide)
  rw [← hext, BitVec.toNat_add, BitVec.toInt_eq_toNat_cond]
  split <;> omega

/-! ### A word moved by one (R12) -/

theorem add_one_toNat (w : Word) : (w + 1#16).toNat = (w.toNat + 1) % 65536 := BitVec.toNat_add w 1#16

theorem sub_one_toNat (w : Word) : (w - 1#16).toNat = (w.toNat + 65535) % 65536 := by
  rw [BitVec.toNat_sub, Nat.add_comm]
  rfl

/-! ### DAA never clears C (R101) -/

theorem daa_keeps_c {a : Byte} {n h c : Bool} (hc : c = true) : (daa a n h c).c = true := by
  cases n with
  | false => exact (daa_add_c_iff a h c).mpr (.inl hc)
  | true => exact hc

end Sys2Proof.Machine

namespace Sys2Proof.Safety

open Sys2Proof.Machine

/-! ### Fetching -/

theorem fetchedFrom_incR16 (rr : R16) : FetchedFrom (.incR16 rr) [0b00#2 ++ r16Code rr ++ 0b0011#4] :=
  fetchedFrom_of_encode (by cases rr <;> decide) (by cases rr <;> rfl)

theorem fetchedFrom_decR16 (rr : R16) : FetchedFrom (.decR16 rr) [0b00#2 ++ r16Code rr ++ 0b1011#4] :=
  fetchedFrom_of_encode (by cases rr <;> decide) (by cases rr <;> rfl)

/-! ### What an instruction that rotates A ends in -/

theorem rotated_of_commitShiftA {i : Instr} {s : State} {x : Shift8} (hexec : exec i s = commitShiftA x s) :
    ∃ t, exec i s = .next t ∧ t.a = x.r ∧ t.f = packFlags false false false x.co ∧ SameExcept [.r8 .a, .f] s t :=
  ⟨_, hexec, commitShiftA_next rfl⟩

/-! ### The obligations -/

/-- Settles O38: the store of a word, below the top of memory and at it. -/
theorem storingTheStackPointer : Obligations.StoringTheStackPointer := by
  refine ⟨fun _ => fetchedFrom_of_encode (by decide) rfl, fun s a16 => ⟨fun ha => ?_, fun ha => ?_, rfl⟩⟩
  · exact ⟨_, by rw [exec_ldA16Sp, write16_ok s s.sp ha, andThen_ok], write8_write8_word s s.sp ha⟩
  · rw [exec_ldA16Sp, ha, write16_top, andThen_error]

/-- Settles O39: a store of A at the high-page address, a load of A from it. -/
theorem highPageLoads : Obligations.HighPageLoads :=
  ⟨fetchedFrom_of_encode (by decide) rfl, fetchedFrom_of_encode (by decide) rfl,
    fun _ => ⟨fetchedFrom_of_encode (by decide) rfl, fetchedFrom_of_encode (by decide) rfl⟩, highPage_toNat, fun s a8 =>
      ⟨stored_of_write8 (exec_ldhCA s), rfl, stored_of_write8 (exec_ldhA8A a8 s), rfl,
        loaded_of_putR8 (r := .a) (exec_ldhAC s), rfl, loaded_of_putR8 (r := .a) (exec_ldhAA8 a8 s), rfl⟩⟩

/-- Settles O42: a pop, then a write of AF, which masks F and leaves SP where the pop put it. -/
theorem popAfMasksTheLowNibble : Obligations.PopAfMasksTheLowNibble := by
  refine ⟨fetchedFrom_of_encode (by decide) rfl, fun s =>
    ⟨fun hsp => ?_, fault_of_pop16_second (exec_popAf s), fault_of_pop16_top (exec_popAf s), rfl⟩⟩
  have hf : (loByte (stackTop s) &&& 0xF0#8).toNat = (read8 s s.sp).toNat / 16 * 16 := by
    rw [stackTop, loByte_leWord, toNat_and_highNibble]
  exact ⟨_, exec_of_pop16_ok (exec_popAf s) hsp, hiByte_leWord _ _, hf,
    popped_of_sameExcept rfl (sameExcept_setAf _ (stackTop s))⟩

/-- Settles O43: each is a write of the operand moved by one. -/
theorem sixteenBitIncrementAndDecrement : Obligations.SixteenBitIncrementAndDecrement := by
  refine ⟨fun rr => ⟨fetchedFrom_incR16 rr, fetchedFrom_decR16 rr⟩, fun s rr => ⟨?_, ?_, rfl, rfl⟩⟩
  · exact ⟨_, exec_incR16 rr s, by rw [State.getR16_putR16, add_one_toNat], sameExcept_putR16 s rr _⟩
  · exact ⟨_, exec_decR16 rr s, by rw [State.getR16_putR16, sub_one_toNat], sameExcept_putR16 s rr _⟩

/-- Settles O45: SP or HL, and F, are written with what `addsp` gives. -/
theorem stackPointerPlusDisplacement : Obligations.StackPointerPlusDisplacement := by
  refine ⟨fun _ => ⟨fetchedFrom_of_encode (by decide) rfl, fetchedFrom_of_encode (by decide) rfl⟩,
    fun s e8 => ⟨?_, ?_, rfl, rfl⟩⟩
  · exact ⟨_, exec_addSpE8 e8 s, add_signExtend16_toNat s.sp e8, rfl, sameExcept_setSp_setFlags s _ _ _ _ _⟩
  · have hhl : (s.setHl (addsp s.sp e8).r).hl = s.sp + signExtend16 e8 := State.hl_setHl s _
    exact ⟨_, exec_ldHlSpE8 e8 s, hhl ▸ add_signExtend16_toNat s.sp e8, rfl, sameExcept_setHl_setFlags s _ _ _ _ _⟩

/-- Settles O50: the nine end alike, on three helpers' results. -/
theorem logicOnTheAccumulator : Obligations.LogicOnTheAccumulator :=
  ⟨fun _ _ => ⟨rfl, rfl, rfl⟩,
    fetchedFrom_aluRegInstr .and rfl, fetchedFrom_aluRegInstr .xor rfl, fetchedFrom_aluRegInstr .or rfl,
    fetchedFrom_aluHlInstr .and, fetchedFrom_aluHlInstr .xor, fetchedFrom_aluHlInstr .or,
    fetchedFrom_aluN8Instr .and, fetchedFrom_aluN8Instr .xor, fetchedFrom_aluN8Instr .or, fun s r n8 =>
      ⟨accumulated_of_commitAlu (exec_andR8 r s), rfl, accumulated_of_commitAlu (exec_xorR8 r s), rfl,
        accumulated_of_commitAlu (exec_orR8 r s), rfl, accumulated_of_commitAlu (exec_andHl s), rfl,
        accumulated_of_commitAlu (exec_xorHl s), rfl, accumulated_of_commitAlu (exec_orHl s), rfl,
        accumulated_of_commitAlu (exec_andN8 n8 s), rfl, accumulated_of_commitAlu (exec_xorN8 n8 s), rfl,
        accumulated_of_commitAlu (exec_orN8 n8 s), rfl⟩⟩

/-- DAA leaves the result and the flags of `daa`: N as before, H clear, C set if it was. -/
theorem accumulated_daa (s : State) :
    ∃ t, exec .daa s = .next t ∧ Accumulated (daa s.a s.flagN s.flagH s.flagC) s t ∧ t.flagN = s.flagN ∧
      t.flagH = false ∧ (s.flagC = true → t.flagC = true) :=
  ⟨_, exec_daa s, commitAlu_next rfl, State.flagN_setFlags _ _ _ _ _, State.flagH_setFlags _ _ _ _ _,
    fun hc => (State.flagC_setFlags _ _ _ _ _).trans (daa_keeps_c hc)⟩

/-- Settles O52: the rotates end alike; CPL writes A and F, SCF and CCF write F alone. -/
theorem oneByteAccumulatorOperations : Obligations.OneByteAccumulatorOperations :=
  ⟨fetchedFrom_of_encode (by decide) rfl, fetchedFrom_of_encode (by decide) rfl, fetchedFrom_of_encode (by decide) rfl,
    fetchedFrom_of_encode (by decide) rfl, fetchedFrom_of_encode (by decide) rfl, fetchedFrom_of_encode (by decide) rfl,
    fetchedFrom_of_encode (by decide) rfl, fetchedFrom_of_encode (by decide) rfl, fun s =>
      ⟨rotated_of_commitShiftA (exec_rlca s), rotated_of_commitShiftA (exec_rrca s),
        rotated_of_commitShiftA (exec_rla s), rotated_of_commitShiftA (exec_rra s), accumulated_daa s,
        ⟨_, exec_cpl s, rfl, rfl, (sameExcept_setA s _).append (sameExcept_setFlags _ _ _ _ _)⟩,
        ⟨_, exec_scf s, rfl, sameExcept_setFlags s _ _ _ _⟩, ⟨_, exec_ccf s, rfl, sameExcept_setFlags s _ _ _ _⟩,
        fun i hi => by fin_cases hi <;> rfl⟩⟩

end Sys2Proof.Safety
end

section
/-! PROOFS. NOP, STOP, HALT, EI, relative jumps, RST and RETI, and the rotates and shifts of Group CB (41_group0.md,
42_group1.md, 45_group3_control.md, 46_group_cb.md): O32, O34, O54, O56, O57. -/

namespace Sys2Proof.Machine

/-! ### The arms -/

theorem exec_nop (s : State) : exec .nop s = .next s := rfl

theorem exec_stop (s : State) : exec .stop s = .next s := rfl

theorem exec_halt (s : State) : exec .halt s = .next s := rfl

theorem exec_jr (e8 : Byte) (s : State) : exec (.jr e8) s = .next (s.setPc (s.pc + signExtend16 e8)) := rfl

/-- A relative jump not taken leaves PC as it is, which is a write of PC all the same. -/
theorem exec_jrCc (cc : Cond) (e8 : Byte) (s : State) :
    exec (.jrCc cc e8) s = .next (s.setPc (if s.cond cc then s.pc + signExtend16 e8 else s.pc)) := by
  have hexec : exec (.jrCc cc e8) s = if s.cond cc then exec (.jr e8) s else .next s := rfl
  rw [hexec, exec_jr]
  split <;> rfl

theorem exec_rst (t : BitVec 3) (s : State) : exec (.rst t) s = callTo (rstTarget t) s := rfl

theorem exec_reti (s : State) :
    exec .reti s = andThen (pop16 s) fun p => .next ((p.2.setPc p.1).setIme true) := rfl

theorem exec_rlcR8 (r : R8) (s : State) : exec (.rlcR8 r) s = commitShift (.reg r) (rlc (s.getR8 r)) s := rfl

theorem exec_rrcR8 (r : R8) (s : State) : exec (.rrcR8 r) s = commitShift (.reg r) (rrc (s.getR8 r)) s := rfl

theorem exec_rlR8 (r : R8) (s : State) : exec (.rlR8 r) s = commitShift (.reg r) (rl (s.getR8 r) s.flagC) s := rfl

theorem exec_rrR8 (r : R8) (s : State) : exec (.rrR8 r) s = commitShift (.reg r) (rr (s.getR8 r) s.flagC) s := rfl

theorem exec_slaR8 (r : R8) (s : State) : exec (.slaR8 r) s = commitShift (.reg r) (sla (s.getR8 r)) s := rfl

theorem exec_sraR8 (r : R8) (s : State) : exec (.sraR8 r) s = commitShift (.reg r) (sra (s.getR8 r)) s := rfl

theorem exec_swapR8 (r : R8) (s : State) : exec (.swapR8 r) s = commitShift (.reg r) (swap (s.getR8 r)) s := rfl

theorem exec_srlR8 (r : R8) (s : State) : exec (.srlR8 r) s = commitShift (.reg r) (srl (s.getR8 r)) s := rfl

theorem exec_rlcHl (s : State) : exec .rlcHl s = commitShift .indHL (rlc (read8 s s.hl)) s := rfl

theorem exec_rrcHl (s : State) : exec .rrcHl s = commitShift .indHL (rrc (read8 s s.hl)) s := rfl

theorem exec_rlHl (s : State) : exec .rlHl s = commitShift .indHL (rl (read8 s s.hl) s.flagC) s := rfl

theorem exec_rrHl (s : State) : exec .rrHl s = commitShift .indHL (rr (read8 s s.hl) s.flagC) s := rfl

theorem exec_slaHl (s : State) : exec .slaHl s = commitShift .indHL (sla (read8 s s.hl)) s := rfl

theorem exec_sraHl (s : State) : exec .sraHl s = commitShift .indHL (sra (read8 s s.hl)) s := rfl

theorem exec_swapHl (s : State) : exec .swapHl s = commitShift .indHL (swap (read8 s s.hl)) s := rfl

theorem exec_srlHl (s : State) : exec .srlHl s = commitShift .indHL (srl (read8 s s.hl)) s := rfl

/-! ### The targets of RST (R70) -/

theorem rstTarget_toNat : ∀ t : BitVec 3, (rstTarget t).toNat = 8 * t.toNat := by decide

end Sys2Proof.Machine

namespace Sys2Proof.Safety

open Sys2Proof.Machine

/-! ### Fetching -/

theorem fetchedFrom_jrCc (cc : Cond) (e8 : Byte) : FetchedFrom (.jrCc cc e8) [0b001#3 ++ condCode cc ++ 0b000#3, e8] :=
  fetchedFrom_of_encode (by cases cc <;> decide) (by cases cc <;> rfl)

theorem fetchedFrom_rst (t : BitVec 3) : FetchedFrom (.rst t) [0b11#2 ++ t ++ 0b111#3] := by
  have hp : ∀ t : BitVec 3, 0b11#2 ++ t ++ 0b111#3 ≠ Config.prefixByte := by decide
  exact fetchedFrom_of_encode (hp t) rfl

/-! ### What the rotates and shifts of Group CB end in -/

section
variable {i : Instr} {s : State} {x : Shift8}

theorem shiftedR8_of_commitShift {r : R8} (hexec : exec i s = commitShift (.reg r) x s) :
    ∃ t, exec i s = .next t ∧ ShiftedR8 r x s t :=
  ⟨_, hexec, by simp [writeOperand8], commitShift_next rfl⟩

theorem shiftedHl_of_commitShift (hexec : exec i s = commitShift .indHL x s) :
    ∃ t, exec i s = .next t ∧ ShiftedHl x s t :=
  ⟨_, hexec, (byteWriteChangesOneByte s s.hl x.r).1, commitShift_next rfl⟩

end

/-! ### The obligations -/

/-- Settles O34: the three answer the state they run in. -/
theorem nopStopHaltOnlyAdvance : Obligations.NopStopHaltOnlyAdvance :=
  ⟨fetchedFrom_of_encode (by decide) rfl, fetchedFrom_of_encode (by decide) rfl, fetchedFrom_of_encode (by decide) rfl,
    fun s => ⟨exec_nop s, exec_stop s, exec_halt s, rfl, rfl, rfl⟩⟩

/-- Settles O32: with no enable in flight EI writes `ime_pend`, otherwise nothing. -/
theorem eiArmsTheDelay : Obligations.EiArmsTheDelay := by
  refine ⟨fetchedFrom_of_encode (by decide) rfl, fun s => ⟨?_, rfl⟩⟩
  rw [exec_ei]
  split
  · exact ⟨_, rfl, sameExcept_setImePend s .armed1, rfl⟩
  · exact ⟨_, rfl, SameExcept.refl _ s, rfl⟩

/-- Settles O54: each is a write of PC; the one not taken writes the PC it has. -/
theorem relativeJumps : Obligations.RelativeJumps := by
  refine ⟨fun _ => fetchedFrom_of_encode (by decide) rfl, fetchedFrom_jrCc, fun s cc e8 => ?_⟩
  have htarget := add_signExtend16_toNat s.pc e8
  refine ⟨⟨_, exec_jr e8 s, htarget, sameExcept_setPc s _⟩, rfl, ⟨_, exec_jrCc cc e8 s, ?_, sameExcept_setPc s _⟩, rfl⟩
  rw [State.setPc_pc]
  split
  · exact htarget
  · rfl

/-- Settles O56: RST is a call; RETI is a pop, then writes of PC and `ime`, which leave SP where the pop put it. -/
theorem restartAndReturnWithEnable : Obligations.RestartAndReturnWithEnable := by
  refine ⟨fetchedFrom_rst, fetchedFrom_of_encode (by decide) rfl, fun s t =>
    ⟨fun hsp => ?_, fun hsp => ?_, fun hsp => ?_, fault_of_pop16_second (exec_reti s),
      fault_of_pop16_top (exec_reti s), rfl, rfl⟩⟩
  · obtain ⟨u, hu, hpc, hpushed⟩ := called_of_callTo (exec_rst t s) hsp
    exact ⟨u, hu, by rw [hpc, rstTarget_toNat], hpushed⟩
  · exact (exec_rst t s).trans (callTo_low (rstTarget t) hsp)
  · exact ⟨_, exec_of_pop16_ok (exec_reti s) hsp, rfl, rfl,
      popped_of_sameExcept rfl ((sameExcept_setPc _ _).append (sameExcept_setIme _ true))⟩

/-- Settles O57: the register forms end alike, and so do the forms on the byte at HL. -/
theorem cbRotatesAndShifts : Obligations.CbRotatesAndShifts :=
  ⟨fun _ => fetchedFrom_of_encode_cb rfl, fetchedFrom_of_encode_cb rfl,
    fun _ => fetchedFrom_of_encode_cb rfl, fetchedFrom_of_encode_cb rfl,
    fun _ => fetchedFrom_of_encode_cb rfl, fetchedFrom_of_encode_cb rfl,
    fun _ => fetchedFrom_of_encode_cb rfl, fetchedFrom_of_encode_cb rfl,
    fun _ => fetchedFrom_of_encode_cb rfl, fetchedFrom_of_encode_cb rfl,
    fun _ => fetchedFrom_of_encode_cb rfl, fetchedFrom_of_encode_cb rfl,
    fun _ => fetchedFrom_of_encode_cb rfl, fetchedFrom_of_encode_cb rfl,
    fun _ => fetchedFrom_of_encode_cb rfl, fetchedFrom_of_encode_cb rfl, fun s r =>
      ⟨shiftedR8_of_commitShift (exec_rlcR8 r s), shiftedHl_of_commitShift (exec_rlcHl s),
        shiftedR8_of_commitShift (exec_rrcR8 r s), shiftedHl_of_commitShift (exec_rrcHl s),
        shiftedR8_of_commitShift (exec_rlR8 r s), shiftedHl_of_commitShift (exec_rlHl s),
        shiftedR8_of_commitShift (exec_rrR8 r s), shiftedHl_of_commitShift (exec_rrHl s),
        shiftedR8_of_commitShift (exec_slaR8 r s), shiftedHl_of_commitShift (exec_slaHl s),
        shiftedR8_of_commitShift (exec_sraR8 r s), shiftedHl_of_commitShift (exec_sraHl s),
        shiftedR8_of_commitShift (exec_swapR8 r s), shiftedHl_of_commitShift (exec_swapHl s),
        shiftedR8_of_commitShift (exec_srlR8 r s), shiftedHl_of_commitShift (exec_srlHl s),
        fun i hi => by fin_cases hi <;> rfl, fun i hi => by fin_cases hi <;> rfl⟩⟩

end Sys2Proof.Safety
end
